-- ==== Sys2Proof/Word.lean ====
section
/-! DEFINITION. The word types of the machine (00_scope.md R7, R8) and the sparse store they are kept in.

`Byte` is every data transfer and every 8-bit register (XLEN_A = 8); `Word` is the program counter and
every CPU address (ALEN = 16). A store of cells is a list of (index, value) pairs; its operations and its
canonical form are in Machine/Memory.lean. -/

namespace Sys2Proof

/-- An 8-bit value (R7, XLEN_A). -/
abbrev Byte := BitVec 8

/-- A 16-bit value: PC and CPU addresses (R7, ALEN). -/
abbrev Word := BitVec 16

/-- A sparse store of `width`-bit cells: pairs (index, value), indices strictly rising, no value equal to
what an unlisted cell reads as (Machine/Memory.lean). -/
abbrev Cells (width : Nat) := List (Nat × BitVec width)

end Sys2Proof
end

