-- ==== Sys2Proof/Syntax.lean ====
section
/-! DEFINITION. The instructions: one constructor for each of the 256 rows of spec/opcode_table.json
(30_encoding.md R144), named by mnemonic and addressing mode (R143), with the opcode byte where two rows share
both. A two-byte instruction carries its operand byte, a three-byte instruction its little-endian operand
word (R140, R142). -/

namespace Sys2Proof

/-- An instruction of the processor, all 256 opcode bytes (R141). -/
inductive Instr where
  -- load, store, transfer
  /-- 0xA9 `LDA #$nn` (R200, R171). -/
  | ldaImm (imm : Byte)
  /-- 0xA5 `LDA $nn` (R200, R173). -/
  | ldaZp (z : Byte)
  /-- 0xB5 `LDA $nn,X` (R200, R175). -/
  | ldaZpx (z : Byte)
  /-- 0xAD `LDA $nnnn` (R200, R172). -/
  | ldaAbs (w : Word)
  /-- 0xBD `LDA $nnnn,X` (R200, R177). -/
  | ldaAbx (w : Word)
  /-- 0xB9 `LDA $nnnn,Y` (R200, R178). -/
  | ldaAby (w : Word)
  /-- 0xA1 `LDA ($nn,X)` (R200, R180). -/
  | ldaIzx (z : Byte)
  /-- 0xB1 `LDA ($nn),Y` (R200, R181). -/
  | ldaIzy (z : Byte)
  /-- 0xA2 `LDX #$nn` (R201, R171). -/
  | ldxImm (imm : Byte)
  /-- 0xA6 `LDX $nn` (R201, R173). -/
  | ldxZp (z : Byte)
  /-- 0xB6 `LDX $nn,Y` (R201, R176). -/
  | ldxZpy (z : Byte)
  /-- 0xAE `LDX $nnnn` (R201, R172). -/
  | ldxAbs (w : Word)
  /-- 0xBE `LDX $nnnn,Y` (R201, R178). -/
  | ldxAby (w : Word)
  /-- 0xA0 `LDY #$nn` (R202, R171). -/
  | ldyImm (imm : Byte)
  /-- 0xA4 `LDY $nn` (R202, R173). -/
  | ldyZp (z : Byte)
  /-- 0xB4 `LDY $nn,X` (R202, R175). -/
  | ldyZpx (z : Byte)
  /-- 0xAC `LDY $nnnn` (R202, R172). -/
  | ldyAbs (w : Word)
  /-- 0xBC `LDY $nnnn,X` (R202, R177). -/
  | ldyAbx (w : Word)
  /-- 0x85 `STA $nn` (R203, R173). -/
  | staZp (z : Byte)
  /-- 0x95 `STA $nn,X` (R203, R175). -/
  | staZpx (z : Byte)
  /-- 0x8D `STA $nnnn` (R203, R172). -/
  | staAbs (w : Word)
  /-- 0x9D `STA $nnnn,X` (R203, R177). -/
  | staAbx (w : Word)
  /-- 0x99 `STA $nnnn,Y` (R203, R178). -/
  | staAby (w : Word)
  /-- 0x81 `STA ($nn,X)` (R203, R180). -/
  | staIzx (z : Byte)
  /-- 0x91 `STA ($nn),Y` (R203, R181). -/
  | staIzy (z : Byte)
  /-- 0x86 `STX $nn` (R204, R173). -/
  | stxZp (z : Byte)
  /-- 0x96 `STX $nn,Y` (R204, R176). -/
  | stxZpy (z : Byte)
  /-- 0x8E `STX $nnnn` (R204, R172). -/
  | stxAbs (w : Word)
  /-- 0x84 `STY $nn` (R205, R173). -/
  | styZp (z : Byte)
  /-- 0x94 `STY $nn,X` (R205, R175). -/
  | styZpx (z : Byte)
  /-- 0x8C `STY $nnnn` (R205, R172). -/
  | styAbs (w : Word)
  /-- 0xAA `TAX` (R206, R170). -/
  | tax
  /-- 0xA8 `TAY` (R207, R170). -/
  | tay
  /-- 0x8A `TXA` (R208, R170). -/
  | txa
  /-- 0x98 `TYA` (R209, R170). -/
  | tya
  /-- 0xBA `TSX` (R210, R170). -/
  | tsx
  /-- 0x9A `TXS` (R211, R170). -/
  | txs
  -- arithmetic, logic, compare, increment, decrement
  /-- 0x69 `ADC #$nn` (R214, R171). -/
  | adcImm (imm : Byte)
  /-- 0x65 `ADC $nn` (R214, R173). -/
  | adcZp (z : Byte)
  /-- 0x75 `ADC $nn,X` (R214, R175). -/
  | adcZpx (z : Byte)
  /-- 0x6D `ADC $nnnn` (R214, R172). -/
  | adcAbs (w : Word)
  /-- 0x7D `ADC $nnnn,X` (R214, R177). -/
  | adcAbx (w : Word)
  /-- 0x79 `ADC $nnnn,Y` (R214, R178). -/
  | adcAby (w : Word)
  /-- 0x61 `ADC ($nn,X)` (R214, R180). -/
  | adcIzx (z : Byte)
  /-- 0x71 `ADC ($nn),Y` (R214, R181). -/
  | adcIzy (z : Byte)
  /-- 0xE9 `SBC #$nn` (R215, R171). -/
  | sbcImm (imm : Byte)
  /-- 0xE5 `SBC $nn` (R215, R173). -/
  | sbcZp (z : Byte)
  /-- 0xF5 `SBC $nn,X` (R215, R175). -/
  | sbcZpx (z : Byte)
  /-- 0xED `SBC $nnnn` (R215, R172). -/
  | sbcAbs (w : Word)
  /-- 0xFD `SBC $nnnn,X` (R215, R177). -/
  | sbcAbx (w : Word)
  /-- 0xF9 `SBC $nnnn,Y` (R215, R178). -/
  | sbcAby (w : Word)
  /-- 0xE1 `SBC ($nn,X)` (R215, R180). -/
  | sbcIzx (z : Byte)
  /-- 0xF1 `SBC ($nn),Y` (R215, R181). -/
  | sbcIzy (z : Byte)
  /-- 0x29 `AND #$nn` (R216, R171). -/
  | andImm (imm : Byte)
  /-- 0x25 `AND $nn` (R216, R173). -/
  | andZp (z : Byte)
  /-- 0x35 `AND $nn,X` (R216, R175). -/
  | andZpx (z : Byte)
  /-- 0x2D `AND $nnnn` (R216, R172). -/
  | andAbs (w : Word)
  /-- 0x3D `AND $nnnn,X` (R216, R177). -/
  | andAbx (w : Word)
  /-- 0x39 `AND $nnnn,Y` (R216, R178). -/
  | andAby (w : Word)
  /-- 0x21 `AND ($nn,X)` (R216, R180). -/
  | andIzx (z : Byte)
  /-- 0x31 `AND ($nn),Y` (R216, R181). -/
  | andIzy (z : Byte)
  /-- 0x09 `ORA #$nn` (R217, R171). -/
  | oraImm (imm : Byte)
  /-- 0x05 `ORA $nn` (R217, R173). -/
  | oraZp (z : Byte)
  /-- 0x15 `ORA $nn,X` (R217, R175). -/
  | oraZpx (z : Byte)
  /-- 0x0D `ORA $nnnn` (R217, R172). -/
  | oraAbs (w : Word)
  /-- 0x1D `ORA $nnnn,X` (R217, R177). -/
  | oraAbx (w : Word)
  /-- 0x19 `ORA $nnnn,Y` (R217, R178). -/
  | oraAby (w : Word)
  /-- 0x01 `ORA ($nn,X)` (R217, R180). -/
  | oraIzx (z : Byte)
  /-- 0x11 `ORA ($nn),Y` (R217, R181). -/
  | oraIzy (z : Byte)
  /-- 0x49 `EOR #$nn` (R218, R171). -/
  | eorImm (imm : Byte)
  /-- 0x45 `EOR $nn` (R218, R173). -/
  | eorZp (z : Byte)
  /-- 0x55 `EOR $nn,X` (R218, R175). -/
  | eorZpx (z : Byte)
  /-- 0x4D `EOR $nnnn` (R218, R172). -/
  | eorAbs (w : Word)
  /-- 0x5D `EOR $nnnn,X` (R218, R177). -/
  | eorAbx (w : Word)
  /-- 0x59 `EOR $nnnn,Y` (R218, R178). -/
  | eorAby (w : Word)
  /-- 0x41 `EOR ($nn,X)` (R218, R180). -/
  | eorIzx (z : Byte)
  /-- 0x51 `EOR ($nn),Y` (R218, R181). -/
  | eorIzy (z : Byte)
  /-- 0x24 `BIT $nn` (R219, R173). -/
  | bitZp (z : Byte)
  /-- 0x2C `BIT $nnnn` (R219, R172). -/
  | bitAbs (w : Word)
  /-- 0xC9 `CMP #$nn` (R220, R171). -/
  | cmpImm (imm : Byte)
  /-- 0xC5 `CMP $nn` (R220, R173). -/
  | cmpZp (z : Byte)
  /-- 0xD5 `CMP $nn,X` (R220, R175). -/
  | cmpZpx (z : Byte)
  /-- 0xCD `CMP $nnnn` (R220, R172). -/
  | cmpAbs (w : Word)
  /-- 0xDD `CMP $nnnn,X` (R220, R177). -/
  | cmpAbx (w : Word)
  /-- 0xD9 `CMP $nnnn,Y` (R220, R178). -/
  | cmpAby (w : Word)
  /-- 0xC1 `CMP ($nn,X)` (R220, R180). -/
  | cmpIzx (z : Byte)
  /-- 0xD1 `CMP ($nn),Y` (R220, R181). -/
  | cmpIzy (z : Byte)
  /-- 0xE0 `CPX #$nn` (R221, R171). -/
  | cpxImm (imm : Byte)
  /-- 0xE4 `CPX $nn` (R221, R173). -/
  | cpxZp (z : Byte)
  /-- 0xEC `CPX $nnnn` (R221, R172). -/
  | cpxAbs (w : Word)
  /-- 0xC0 `CPY #$nn` (R222, R171). -/
  | cpyImm (imm : Byte)
  /-- 0xC4 `CPY $nn` (R222, R173). -/
  | cpyZp (z : Byte)
  /-- 0xCC `CPY $nnnn` (R222, R172). -/
  | cpyAbs (w : Word)
  /-- 0xE6 `INC $nn` (R223, R173). -/
  | incZp (z : Byte)
  /-- 0xF6 `INC $nn,X` (R223, R175). -/
  | incZpx (z : Byte)
  /-- 0xEE `INC $nnnn` (R223, R172). -/
  | incAbs (w : Word)
  /-- 0xFE `INC $nnnn,X` (R223, R177). -/
  | incAbx (w : Word)
  /-- 0xC6 `DEC $nn` (R224, R173). -/
  | decZp (z : Byte)
  /-- 0xD6 `DEC $nn,X` (R224, R175). -/
  | decZpx (z : Byte)
  /-- 0xCE `DEC $nnnn` (R224, R172). -/
  | decAbs (w : Word)
  /-- 0xDE `DEC $nnnn,X` (R224, R177). -/
  | decAbx (w : Word)
  /-- 0xE8 `INX` (R225, R170). -/
  | inx
  /-- 0xC8 `INY` (R226, R170). -/
  | iny
  /-- 0xCA `DEX` (R227, R170). -/
  | dex
  /-- 0x88 `DEY` (R228, R170). -/
  | dey
  -- shift and rotate
  /-- 0x0A `ASL A` (R229, R174). -/
  | aslAcc
  /-- 0x06 `ASL $nn` (R229, R173). -/
  | aslZp (z : Byte)
  /-- 0x16 `ASL $nn,X` (R229, R175). -/
  | aslZpx (z : Byte)
  /-- 0x0E `ASL $nnnn` (R229, R172). -/
  | aslAbs (w : Word)
  /-- 0x1E `ASL $nnnn,X` (R229, R177). -/
  | aslAbx (w : Word)
  /-- 0x4A `LSR A` (R230, R174). -/
  | lsrAcc
  /-- 0x46 `LSR $nn` (R230, R173). -/
  | lsrZp (z : Byte)
  /-- 0x56 `LSR $nn,X` (R230, R175). -/
  | lsrZpx (z : Byte)
  /-- 0x4E `LSR $nnnn` (R230, R172). -/
  | lsrAbs (w : Word)
  /-- 0x5E `LSR $nnnn,X` (R230, R177). -/
  | lsrAbx (w : Word)
  /-- 0x2A `ROL A` (R231, R174). -/
  | rolAcc
  /-- 0x26 `ROL $nn` (R231, R173). -/
  | rolZp (z : Byte)
  /-- 0x36 `ROL $nn,X` (R231, R175). -/
  | rolZpx (z : Byte)
  /-- 0x2E `ROL $nnnn` (R231, R172). -/
  | rolAbs (w : Word)
  /-- 0x3E `ROL $nnnn,X` (R231, R177). -/
  | rolAbx (w : Word)
  /-- 0x6A `ROR A` (R232, R174). -/
  | rorAcc
  /-- 0x66 `ROR $nn` (R232, R173). -/
  | rorZp (z : Byte)
  /-- 0x76 `ROR $nn,X` (R232, R175). -/
  | rorZpx (z : Byte)
  /-- 0x6E `ROR $nnnn` (R232, R172). -/
  | rorAbs (w : Word)
  /-- 0x7E `ROR $nnnn,X` (R232, R177). -/
  | rorAbx (w : Word)
  -- control flow
  /-- 0x4C `JMP $nnnn` (R234, R172). -/
  | jmpAbs (w : Word)
  /-- 0x6C `JMP ($nnnn)` (R234, R182). -/
  | jmpInd (ptr : Word)
  /-- 0x20 `JSR $nnnn` (R235, R172). -/
  | jsrAbs (w : Word)
  /-- 0x60 `RTS` (R236, R170). -/
  | rts
  /-- 0x90 `BCC label` (R237, R179). -/
  | bccRel (off : Byte)
  /-- 0xB0 `BCS label` (R238, R179). -/
  | bcsRel (off : Byte)
  /-- 0xF0 `BEQ label` (R239, R179). -/
  | beqRel (off : Byte)
  /-- 0xD0 `BNE label` (R240, R179). -/
  | bneRel (off : Byte)
  /-- 0x30 `BMI label` (R241, R179). -/
  | bmiRel (off : Byte)
  /-- 0x10 `BPL label` (R242, R179). -/
  | bplRel (off : Byte)
  /-- 0x50 `BVC label` (R243, R179). -/
  | bvcRel (off : Byte)
  /-- 0x70 `BVS label` (R244, R179). -/
  | bvsRel (off : Byte)
  /-- 0x00 `BRK` (R245, R170). -/
  | brk
  /-- 0x40 `RTI` (R246, R170). -/
  | rti
  -- stack, flags, no-operation
  /-- 0x48 `PHA` (R247, R170). -/
  | pha
  /-- 0x08 `PHP` (R248, R170). -/
  | php
  /-- 0x68 `PLA` (R249, R170). -/
  | pla
  /-- 0x28 `PLP` (R250, R170). -/
  | plp
  /-- 0x18 `CLC` (R251, R170). -/
  | clc
  /-- 0x38 `SEC` (R252, R170). -/
  | sec
  /-- 0x58 `CLI` (R253, R170). -/
  | cli
  /-- 0x78 `SEI` (R254, R170). -/
  | sei
  /-- 0xD8 `CLD` (R255, R170). -/
  | cld
  /-- 0xF8 `SED` (R256, R170). -/
  | sed
  /-- 0xB8 `CLV` (R257, R170). -/
  | clv
  /-- 0xEA `NOP` (R258, R170). -/
  | nop
  -- unofficial
  /-- 0x07 `SLO $nn` (R260, R173). -/
  | sloZp (z : Byte)
  /-- 0x17 `SLO $nn,X` (R260, R175). -/
  | sloZpx (z : Byte)
  /-- 0x0F `SLO $nnnn` (R260, R172). -/
  | sloAbs (w : Word)
  /-- 0x1F `SLO $nnnn,X` (R260, R177). -/
  | sloAbx (w : Word)
  /-- 0x1B `SLO $nnnn,Y` (R260, R178). -/
  | sloAby (w : Word)
  /-- 0x03 `SLO ($nn,X)` (R260, R180). -/
  | sloIzx (z : Byte)
  /-- 0x13 `SLO ($nn),Y` (R260, R181). -/
  | sloIzy (z : Byte)
  /-- 0x27 `RLA $nn` (R261, R173). -/
  | rlaZp (z : Byte)
  /-- 0x37 `RLA $nn,X` (R261, R175). -/
  | rlaZpx (z : Byte)
  /-- 0x2F `RLA $nnnn` (R261, R172). -/
  | rlaAbs (w : Word)
  /-- 0x3F `RLA $nnnn,X` (R261, R177). -/
  | rlaAbx (w : Word)
  /-- 0x3B `RLA $nnnn,Y` (R261, R178). -/
  | rlaAby (w : Word)
  /-- 0x23 `RLA ($nn,X)` (R261, R180). -/
  | rlaIzx (z : Byte)
  /-- 0x33 `RLA ($nn),Y` (R261, R181). -/
  | rlaIzy (z : Byte)
  /-- 0x47 `SRE $nn` (R262, R173). -/
  | sreZp (z : Byte)
  /-- 0x57 `SRE $nn,X` (R262, R175). -/
  | sreZpx (z : Byte)
  /-- 0x4F `SRE $nnnn` (R262, R172). -/
  | sreAbs (w : Word)
  /-- 0x5F `SRE $nnnn,X` (R262, R177). -/
  | sreAbx (w : Word)
  /-- 0x5B `SRE $nnnn,Y` (R262, R178). -/
  | sreAby (w : Word)
  /-- 0x43 `SRE ($nn,X)` (R262, R180). -/
  | sreIzx (z : Byte)
  /-- 0x53 `SRE ($nn),Y` (R262, R181). -/
  | sreIzy (z : Byte)
  /-- 0x67 `RRA $nn` (R263, R173). -/
  | rraZp (z : Byte)
  /-- 0x77 `RRA $nn,X` (R263, R175). -/
  | rraZpx (z : Byte)
  /-- 0x6F `RRA $nnnn` (R263, R172). -/
  | rraAbs (w : Word)
  /-- 0x7F `RRA $nnnn,X` (R263, R177). -/
  | rraAbx (w : Word)
  /-- 0x7B `RRA $nnnn,Y` (R263, R178). -/
  | rraAby (w : Word)
  /-- 0x63 `RRA ($nn,X)` (R263, R180). -/
  | rraIzx (z : Byte)
  /-- 0x73 `RRA ($nn),Y` (R263, R181). -/
  | rraIzy (z : Byte)
  /-- 0x87 `SAX $nn` (R264, R173). -/
  | saxZp (z : Byte)
  /-- 0x97 `SAX $nn,Y` (R264, R176). -/
  | saxZpy (z : Byte)
  /-- 0x8F `SAX $nnnn` (R264, R172). -/
  | saxAbs (w : Word)
  /-- 0x83 `SAX ($nn,X)` (R264, R180). -/
  | saxIzx (z : Byte)
  /-- 0xA7 `LAX $nn` (R265, R173). -/
  | laxZp (z : Byte)
  /-- 0xB7 `LAX $nn,Y` (R265, R176). -/
  | laxZpy (z : Byte)
  /-- 0xAF `LAX $nnnn` (R265, R172). -/
  | laxAbs (w : Word)
  /-- 0xBF `LAX $nnnn,Y` (R265, R178). -/
  | laxAby (w : Word)
  /-- 0xA3 `LAX ($nn,X)` (R265, R180). -/
  | laxIzx (z : Byte)
  /-- 0xB3 `LAX ($nn),Y` (R265, R181). -/
  | laxIzy (z : Byte)
  /-- 0xC7 `DCP $nn` (R266, R173). -/
  | dcpZp (z : Byte)
  /-- 0xD7 `DCP $nn,X` (R266, R175). -/
  | dcpZpx (z : Byte)
  /-- 0xCF `DCP $nnnn` (R266, R172). -/
  | dcpAbs (w : Word)
  /-- 0xDF `DCP $nnnn,X` (R266, R177). -/
  | dcpAbx (w : Word)
  /-- 0xDB `DCP $nnnn,Y` (R266, R178). -/
  | dcpAby (w : Word)
  /-- 0xC3 `DCP ($nn,X)` (R266, R180). -/
  | dcpIzx (z : Byte)
  /-- 0xD3 `DCP ($nn),Y` (R266, R181). -/
  | dcpIzy (z : Byte)
  /-- 0xE7 `ISC $nn` (R267, R173). -/
  | iscZp (z : Byte)
  /-- 0xF7 `ISC $nn,X` (R267, R175). -/
  | iscZpx (z : Byte)
  /-- 0xEF `ISC $nnnn` (R267, R172). -/
  | iscAbs (w : Word)
  /-- 0xFF `ISC $nnnn,X` (R267, R177). -/
  | iscAbx (w : Word)
  /-- 0xFB `ISC $nnnn,Y` (R267, R178). -/
  | iscAby (w : Word)
  /-- 0xE3 `ISC ($nn,X)` (R267, R180). -/
  | iscIzx (z : Byte)
  /-- 0xF3 `ISC ($nn),Y` (R267, R181). -/
  | iscIzy (z : Byte)
  /-- 0x0B `ANC #$nn` (R268, R171). -/
  | ancImm0B (imm : Byte)
  /-- 0x2B `ANC #$nn` (R268, R171). -/
  | ancImm2B (imm : Byte)
  /-- 0x4B `ALR #$nn` (R269, R171). -/
  | alrImm (imm : Byte)
  /-- 0x6B `ARR #$nn` (R270, R171). -/
  | arrImm (imm : Byte)
  /-- 0xCB `AXS #$nn` (R271, R171). -/
  | axsImm (imm : Byte)
  /-- 0xEB `SBC #$nn` (R272, R171). -/
  | sbcImmEB (imm : Byte)
  /-- 0x1A `NOP` (R273, R170). -/
  | nopImp1A
  /-- 0x3A `NOP` (R273, R170). -/
  | nopImp3A
  /-- 0x5A `NOP` (R273, R170). -/
  | nopImp5A
  /-- 0x7A `NOP` (R273, R170). -/
  | nopImp7A
  /-- 0xDA `NOP` (R273, R170). -/
  | nopImpDA
  /-- 0xFA `NOP` (R273, R170). -/
  | nopImpFA
  /-- 0x80 `NOP #$nn` (R273, R171). -/
  | nopImm80 (imm : Byte)
  /-- 0x82 `NOP #$nn` (R273, R171). -/
  | nopImm82 (imm : Byte)
  /-- 0x89 `NOP #$nn` (R273, R171). -/
  | nopImm89 (imm : Byte)
  /-- 0xC2 `NOP #$nn` (R273, R171). -/
  | nopImmC2 (imm : Byte)
  /-- 0xE2 `NOP #$nn` (R273, R171). -/
  | nopImmE2 (imm : Byte)
  /-- 0x04 `NOP $nn` (R273, R173). -/
  | nopZp04 (z : Byte)
  /-- 0x44 `NOP $nn` (R273, R173). -/
  | nopZp44 (z : Byte)
  /-- 0x64 `NOP $nn` (R273, R173). -/
  | nopZp64 (z : Byte)
  /-- 0x14 `NOP $nn,X` (R273, R175). -/
  | nopZpx14 (z : Byte)
  /-- 0x34 `NOP $nn,X` (R273, R175). -/
  | nopZpx34 (z : Byte)
  /-- 0x54 `NOP $nn,X` (R273, R175). -/
  | nopZpx54 (z : Byte)
  /-- 0x74 `NOP $nn,X` (R273, R175). -/
  | nopZpx74 (z : Byte)
  /-- 0xD4 `NOP $nn,X` (R273, R175). -/
  | nopZpxD4 (z : Byte)
  /-- 0xF4 `NOP $nn,X` (R273, R175). -/
  | nopZpxF4 (z : Byte)
  /-- 0x0C `NOP $nnnn` (R273, R172). -/
  | nopAbs0C (w : Word)
  /-- 0x1C `NOP $nnnn,X` (R273, R177). -/
  | nopAbx1C (w : Word)
  /-- 0x3C `NOP $nnnn,X` (R273, R177). -/
  | nopAbx3C (w : Word)
  /-- 0x5C `NOP $nnnn,X` (R273, R177). -/
  | nopAbx5C (w : Word)
  /-- 0x7C `NOP $nnnn,X` (R273, R177). -/
  | nopAbx7C (w : Word)
  /-- 0xDC `NOP $nnnn,X` (R273, R177). -/
  | nopAbxDC (w : Word)
  /-- 0xFC `NOP $nnnn,X` (R273, R177). -/
  | nopAbxFC (w : Word)
  /-- 0x8B `ANE #$nn` (R274, R171). -/
  | aneImm (imm : Byte)
  /-- 0xAB `LXA #$nn` (R275, R171). -/
  | lxaImm (imm : Byte)
  /-- 0x9F `SHA $nnnn,Y` (R276, R178). -/
  | shaAby (w : Word)
  /-- 0x93 `SHA ($nn),Y` (R276, R181). -/
  | shaIzy (z : Byte)
  /-- 0x9E `SHX $nnnn,Y` (R277, R178). -/
  | shxAby (w : Word)
  /-- 0x9C `SHY $nnnn,X` (R278, R177). -/
  | shyAbx (w : Word)
  /-- 0x9B `TAS $nnnn,Y` (R279, R178). -/
  | tasAby (w : Word)
  /-- 0xBB `LAS $nnnn,Y` (R280, R178). -/
  | lasAby (w : Word)
  /-- 0x02 `JAM` (R281, R170). -/
  | jam02
  /-- 0x12 `JAM` (R281, R170). -/
  | jam12
  /-- 0x22 `JAM` (R281, R170). -/
  | jam22
  /-- 0x32 `JAM` (R281, R170). -/
  | jam32
  /-- 0x42 `JAM` (R281, R170). -/
  | jam42
  /-- 0x52 `JAM` (R281, R170). -/
  | jam52
  /-- 0x62 `JAM` (R281, R170). -/
  | jam62
  /-- 0x72 `JAM` (R281, R170). -/
  | jam72
  /-- 0x92 `JAM` (R281, R170). -/
  | jam92
  /-- 0xB2 `JAM` (R281, R170). -/
  | jamB2
  /-- 0xD2 `JAM` (R281, R170). -/
  | jamD2
  /-- 0xF2 `JAM` (R281, R170). -/
  | jamF2
  deriving DecidableEq, Repr

end Sys2Proof
end

