-- ==== Sys2Proof/WellFormed.lean ====
section
/-! DEFINITION. Well-formedness of an instruction (30_encoding.md R141): "Bytes 1 and 2 may hold any value; no
operand value is reserved". The operand widths of R140 are the types of the constructors' arguments, so
there is no check left that a term of `Instr` could fail. -/

namespace Sys2Proof

/-- An instruction is well formed: always (R141, log 16). -/
def Instr.wf (_ : Instr) : Bool := true

end Sys2Proof
end

