-- ==== Sys2Proof/Decode.lean ====
section
/-! DEFINITION. The encoding (30_encoding.md): the opcode map of R144 as sixteen rows of sixteen shapes, the
decoder read from it, total on three bytes (R141) and rejecting a truncated byte string by name, and the
encoder, written from the encoding column of the opcode table. -/

namespace Sys2Proof

/-- `{hi, lo}`: the 16-bit word with the given high and low bytes (R8, R142). -/
def wordOf (hi lo : Byte) : Word := hi ++ lo

/-- `hi(w)` (R8). -/
def hiByte (w : Word) : Byte := w.extractLsb' 8 8

/-- `lo(w)` (R8). -/
def loByte (w : Word) : Byte := w.extractLsb' 0 8

/-- What one cell of the opcode map selects: the instruction of format F1, F2 or F3 (R140), which for F2 and
F3 still wants its operand. -/
inductive Shape where
  | f1 (i : Instr)
  | f2 (c : Byte → Instr)
  | f3 (c : Word → Instr)

namespace OpcodeMap

/-- Row 0x of the opcode map (R144). -/
def row0 : List Shape :=
  [.f1 .brk, .f2 .oraIzx, .f1 .jam02, .f2 .sloIzx,
   .f2 .nopZp04, .f2 .oraZp, .f2 .aslZp, .f2 .sloZp,
   .f1 .php, .f2 .oraImm, .f1 .aslAcc, .f2 .ancImm0B,
   .f3 .nopAbs0C, .f3 .oraAbs, .f3 .aslAbs, .f3 .sloAbs]

/-- Row 1x of the opcode map (R144). -/
def row1 : List Shape :=
  [.f2 .bplRel, .f2 .oraIzy, .f1 .jam12, .f2 .sloIzy,
   .f2 .nopZpx14, .f2 .oraZpx, .f2 .aslZpx, .f2 .sloZpx,
   .f1 .clc, .f3 .oraAby, .f1 .nopImp1A, .f3 .sloAby,
   .f3 .nopAbx1C, .f3 .oraAbx, .f3 .aslAbx, .f3 .sloAbx]

/-- Row 2x of the opcode map (R144). -/
def row2 : List Shape :=
  [.f3 .jsrAbs, .f2 .andIzx, .f1 .jam22, .f2 .rlaIzx,
   .f2 .bitZp, .f2 .andZp, .f2 .rolZp, .f2 .rlaZp,
   .f1 .plp, .f2 .andImm, .f1 .rolAcc, .f2 .ancImm2B,
   .f3 .bitAbs, .f3 .andAbs, .f3 .rolAbs, .f3 .rlaAbs]

/-- Row 3x of the opcode map (R144). -/
def row3 : List Shape :=
  [.f2 .bmiRel, .f2 .andIzy, .f1 .jam32, .f2 .rlaIzy,
   .f2 .nopZpx34, .f2 .andZpx, .f2 .rolZpx, .f2 .rlaZpx,
   .f1 .sec, .f3 .andAby, .f1 .nopImp3A, .f3 .rlaAby,
   .f3 .nopAbx3C, .f3 .andAbx, .f3 .rolAbx, .f3 .rlaAbx]

/-- Row 4x of the opcode map (R144). -/
def row4 : List Shape :=
  [.f1 .rti, .f2 .eorIzx, .f1 .jam42, .f2 .sreIzx,
   .f2 .nopZp44, .f2 .eorZp, .f2 .lsrZp, .f2 .sreZp,
   .f1 .pha, .f2 .eorImm, .f1 .lsrAcc, .f2 .alrImm,
   .f3 .jmpAbs, .f3 .eorAbs, .f3 .lsrAbs, .f3 .sreAbs]

/-- Row 5x of the opcode map (R144). -/
def row5 : List Shape :=
  [.f2 .bvcRel, .f2 .eorIzy, .f1 .jam52, .f2 .sreIzy,
   .f2 .nopZpx54, .f2 .eorZpx, .f2 .lsrZpx, .f2 .sreZpx,
   .f1 .cli, .f3 .eorAby, .f1 .nopImp5A, .f3 .sreAby,
   .f3 .nopAbx5C, .f3 .eorAbx, .f3 .lsrAbx, .f3 .sreAbx]

/-- Row 6x of the opcode map (R144). -/
def row6 : List Shape :=
  [.f1 .rts, .f2 .adcIzx, .f1 .jam62, .f2 .rraIzx,
   .f2 .nopZp64, .f2 .adcZp, .f2 .rorZp, .f2 .rraZp,
   .f1 .pla, .f2 .adcImm, .f1 .rorAcc, .f2 .arrImm,
   .f3 .jmpInd, .f3 .adcAbs, .f3 .rorAbs, .f3 .rraAbs]

/-- Row 7x of the opcode map (R144). -/
def row7 : List Shape :=
  [.f2 .bvsRel, .f2 .adcIzy, .f1 .jam72, .f2 .rraIzy,
   .f2 .nopZpx74, .f2 .adcZpx, .f2 .rorZpx, .f2 .rraZpx,
   .f1 .sei, .f3 .adcAby, .f1 .nopImp7A, .f3 .rraAby,
   .f3 .nopAbx7C, .f3 .adcAbx, .f3 .rorAbx, .f3 .rraAbx]

/-- Row 8x of the opcode map (R144). -/
def row8 : List Shape :=
  [.f2 .nopImm80, .f2 .staIzx, .f2 .nopImm82, .f2 .saxIzx,
   .f2 .styZp, .f2 .staZp, .f2 .stxZp, .f2 .saxZp,
   .f1 .dey, .f2 .nopImm89, .f1 .txa, .f2 .aneImm,
   .f3 .styAbs, .f3 .staAbs, .f3 .stxAbs, .f3 .saxAbs]

/-- Row 9x of the opcode map (R144). -/
def row9 : List Shape :=
  [.f2 .bccRel, .f2 .staIzy, .f1 .jam92, .f2 .shaIzy,
   .f2 .styZpx, .f2 .staZpx, .f2 .stxZpy, .f2 .saxZpy,
   .f1 .tya, .f3 .staAby, .f1 .txs, .f3 .tasAby,
   .f3 .shyAbx, .f3 .staAbx, .f3 .shxAby, .f3 .shaAby]

/-- Row Ax of the opcode map (R144). -/
def rowA : List Shape :=
  [.f2 .ldyImm, .f2 .ldaIzx, .f2 .ldxImm, .f2 .laxIzx,
   .f2 .ldyZp, .f2 .ldaZp, .f2 .ldxZp, .f2 .laxZp,
   .f1 .tay, .f2 .ldaImm, .f1 .tax, .f2 .lxaImm,
   .f3 .ldyAbs, .f3 .ldaAbs, .f3 .ldxAbs, .f3 .laxAbs]

/-- Row Bx of the opcode map (R144). -/
def rowB : List Shape :=
  [.f2 .bcsRel, .f2 .ldaIzy, .f1 .jamB2, .f2 .laxIzy,
   .f2 .ldyZpx, .f2 .ldaZpx, .f2 .ldxZpy, .f2 .laxZpy,
   .f1 .clv, .f3 .ldaAby, .f1 .tsx, .f3 .lasAby,
   .f3 .ldyAbx, .f3 .ldaAbx, .f3 .ldxAby, .f3 .laxAby]

/-- Row Cx of the opcode map (R144). -/
def rowC : List Shape :=
  [.f2 .cpyImm, .f2 .cmpIzx, .f2 .nopImmC2, .f2 .dcpIzx,
   .f2 .cpyZp, .f2 .cmpZp, .f2 .decZp, .f2 .dcpZp,
   .f1 .iny, .f2 .cmpImm, .f1 .dex, .f2 .axsImm,
   .f3 .cpyAbs, .f3 .cmpAbs, .f3 .decAbs, .f3 .dcpAbs]

/-- Row Dx of the opcode map (R144). -/
def rowD : List Shape :=
  [.f2 .bneRel, .f2 .cmpIzy, .f1 .jamD2, .f2 .dcpIzy,
   .f2 .nopZpxD4, .f2 .cmpZpx, .f2 .decZpx, .f2 .dcpZpx,
   .f1 .cld, .f3 .cmpAby, .f1 .nopImpDA, .f3 .dcpAby,
   .f3 .nopAbxDC, .f3 .cmpAbx, .f3 .decAbx, .f3 .dcpAbx]

/-- Row Ex of the opcode map (R144). -/
def rowE : List Shape :=
  [.f2 .cpxImm, .f2 .sbcIzx, .f2 .nopImmE2, .f2 .iscIzx,
   .f2 .cpxZp, .f2 .sbcZp, .f2 .incZp, .f2 .iscZp,
   .f1 .inx, .f2 .sbcImm, .f1 .nop, .f2 .sbcImmEB,
   .f3 .cpxAbs, .f3 .sbcAbs, .f3 .incAbs, .f3 .iscAbs]

/-- Row Fx of the opcode map (R144). -/
def rowF : List Shape :=
  [.f2 .beqRel, .f2 .sbcIzy, .f1 .jamF2, .f2 .iscIzy,
   .f2 .nopZpxF4, .f2 .sbcZpx, .f2 .incZpx, .f2 .iscZpx,
   .f1 .sed, .f3 .sbcAby, .f1 .nopImpFA, .f3 .iscAby,
   .f3 .nopAbxFC, .f3 .sbcAbx, .f3 .incAbx, .f3 .iscAbx]

/-- The sixteen rows, by the high nibble of byte 0 (R144). -/
def rows : List (List Shape) :=
  [row0, row1, row2, row3, row4, row5, row6, row7,
   row8, row9, rowA, rowB, rowC, rowD, rowE, rowF]

end OpcodeMap

/-- The cell of the opcode map that an opcode byte selects: row by its high nibble, column by its low one.
Every byte has a cell (R141); the default of the two list look-ups is never reached. -/
def shapeOf (op : Byte) : Shape :=
  ((OpcodeMap.rows.getD (op.toNat / 16) []).getD (op.toNat % 16) (.f1 .nop))

/-- The length in bytes of the instruction an opcode byte begins (R140, R143). -/
def lengthOf (op : Byte) : Nat :=
  match shapeOf op with
  | .f1 _ => 1
  | .f2 _ => 2
  | .f3 _ => 3

/-- The decode function of R141 on the three bytes at an instruction: total, and reading the second and third
byte only where the format has them. -/
def decodeBytes (op b1 b2 : Byte) : Instr :=
  match shapeOf op with
  | .f1 i => i
  | .f2 c => c b1
  | .f3 c => c (wordOf b2 b1)

/-- Why a byte string is not an instruction followed by a rest: it ends too early. No opcode and no operand
value is rejected (R141, R146). -/
inductive DecodeError where
  /-- No byte at all. -/
  | noOpcode
  /-- A two- or three-byte instruction without its first operand byte. -/
  | noFirstOperand
  /-- A three-byte instruction without its second operand byte. -/
  | noSecondOperand
  deriving DecidableEq, Repr

/-- The decoder on any byte string: the instruction at its head and the bytes after it, or the name of what is
missing. -/
def decode : List Byte → Except DecodeError (Instr × List Byte)
  | [] => .error .noOpcode
  | op :: rest =>
    match shapeOf op, rest with
    | .f1 i, rest => .ok (i, rest)
    | .f2 c, b1 :: rest => .ok (c b1, rest)
    | .f2 _, [] => .error .noFirstOperand
    | .f3 c, b1 :: b2 :: rest => .ok (c (wordOf b2 b1), rest)
    | .f3 _, [] => .error .noFirstOperand
    | .f3 _, [_] => .error .noSecondOperand

/-- The bytes of an instruction in memory order (R140, R142; the encoding column of the opcode table). -/
def encode : Instr → List Byte
  | .ldaImm imm => [0xA9, imm]
  | .ldaZp z => [0xA5, z]
  | .ldaZpx z => [0xB5, z]
  | .ldaAbs w => [0xAD, loByte w, hiByte w]
  | .ldaAbx w => [0xBD, loByte w, hiByte w]
  | .ldaAby w => [0xB9, loByte w, hiByte w]
  | .ldaIzx z => [0xA1, z]
  | .ldaIzy z => [0xB1, z]
  | .ldxImm imm => [0xA2, imm]
  | .ldxZp z => [0xA6, z]
  | .ldxZpy z => [0xB6, z]
  | .ldxAbs w => [0xAE, loByte w, hiByte w]
  | .ldxAby w => [0xBE, loByte w, hiByte w]
  | .ldyImm imm => [0xA0, imm]
  | .ldyZp z => [0xA4, z]
  | .ldyZpx z => [0xB4, z]
  | .ldyAbs w => [0xAC, loByte w, hiByte w]
  | .ldyAbx w => [0xBC, loByte w, hiByte w]
  | .staZp z => [0x85, z]
  | .staZpx z => [0x95, z]
  | .staAbs w => [0x8D, loByte w, hiByte w]
  | .staAbx w => [0x9D, loByte w, hiByte w]
  | .staAby w => [0x99, loByte w, hiByte w]
  | .staIzx z => [0x81, z]
  | .staIzy z => [0x91, z]
  | .stxZp z => [0x86, z]
  | .stxZpy z => [0x96, z]
  | .stxAbs w => [0x8E, loByte w, hiByte w]
  | .styZp z => [0x84, z]
  | .styZpx z => [0x94, z]
  | .styAbs w => [0x8C, loByte w, hiByte w]
  | .tax => [0xAA]
  | .tay => [0xA8]
  | .txa => [0x8A]
  | .tya => [0x98]
  | .tsx => [0xBA]
  | .txs => [0x9A]
  | .adcImm imm => [0x69, imm]
  | .adcZp z => [0x65, z]
  | .adcZpx z => [0x75, z]
  | .adcAbs w => [0x6D, loByte w, hiByte w]
  | .adcAbx w => [0x7D, loByte w, hiByte w]
  | .adcAby w => [0x79, loByte w, hiByte w]
  | .adcIzx z => [0x61, z]
  | .adcIzy z => [0x71, z]
  | .sbcImm imm => [0xE9, imm]
  | .sbcZp z => [0xE5, z]
  | .sbcZpx z => [0xF5, z]
  | .sbcAbs w => [0xED, loByte w, hiByte w]
  | .sbcAbx w => [0xFD, loByte w, hiByte w]
  | .sbcAby w => [0xF9, loByte w, hiByte w]
  | .sbcIzx z => [0xE1, z]
  | .sbcIzy z => [0xF1, z]
  | .andImm imm => [0x29, imm]
  | .andZp z => [0x25, z]
  | .andZpx z => [0x35, z]
  | .andAbs w => [0x2D, loByte w, hiByte w]
  | .andAbx w => [0x3D, loByte w, hiByte w]
  | .andAby w => [0x39, loByte w, hiByte w]
  | .andIzx z => [0x21, z]
  | .andIzy z => [0x31, z]
  | .oraImm imm => [0x09, imm]
  | .oraZp z => [0x05, z]
  | .oraZpx z => [0x15, z]
  | .oraAbs w => [0x0D, loByte w, hiByte w]
  | .oraAbx w => [0x1D, loByte w, hiByte w]
  | .oraAby w => [0x19, loByte w, hiByte w]
  | .oraIzx z => [0x01, z]
  | .oraIzy z => [0x11, z]
  | .eorImm imm => [0x49, imm]
  | .eorZp z => [0x45, z]
  | .eorZpx z => [0x55, z]
  | .eorAbs w => [0x4D, loByte w, hiByte w]
  | .eorAbx w => [0x5D, loByte w, hiByte w]
  | .eorAby w => [0x59, loByte w, hiByte w]
  | .eorIzx z => [0x41, z]
  | .eorIzy z => [0x51, z]
  | .bitZp z => [0x24, z]
  | .bitAbs w => [0x2C, loByte w, hiByte w]
  | .cmpImm imm => [0xC9, imm]
  | .cmpZp z => [0xC5, z]
  | .cmpZpx z => [0xD5, z]
  | .cmpAbs w => [0xCD, loByte w, hiByte w]
  | .cmpAbx w => [0xDD, loByte w, hiByte w]
  | .cmpAby w => [0xD9, loByte w, hiByte w]
  | .cmpIzx z => [0xC1, z]
  | .cmpIzy z => [0xD1, z]
  | .cpxImm imm => [0xE0, imm]
  | .cpxZp z => [0xE4, z]
  | .cpxAbs w => [0xEC, loByte w, hiByte w]
  | .cpyImm imm => [0xC0, imm]
  | .cpyZp z => [0xC4, z]
  | .cpyAbs w => [0xCC, loByte w, hiByte w]
  | .incZp z => [0xE6, z]
  | .incZpx z => [0xF6, z]
  | .incAbs w => [0xEE, loByte w, hiByte w]
  | .incAbx w => [0xFE, loByte w, hiByte w]
  | .decZp z => [0xC6, z]
  | .decZpx z => [0xD6, z]
  | .decAbs w => [0xCE, loByte w, hiByte w]
  | .decAbx w => [0xDE, loByte w, hiByte w]
  | .inx => [0xE8]
  | .iny => [0xC8]
  | .dex => [0xCA]
  | .dey => [0x88]
  | .aslAcc => [0x0A]
  | .aslZp z => [0x06, z]
  | .aslZpx z => [0x16, z]
  | .aslAbs w => [0x0E, loByte w, hiByte w]
  | .aslAbx w => [0x1E, loByte w, hiByte w]
  | .lsrAcc => [0x4A]
  | .lsrZp z => [0x46, z]
  | .lsrZpx z => [0x56, z]
  | .lsrAbs w => [0x4E, loByte w, hiByte w]
  | .lsrAbx w => [0x5E, loByte w, hiByte w]
  | .rolAcc => [0x2A]
  | .rolZp z => [0x26, z]
  | .rolZpx z => [0x36, z]
  | .rolAbs w => [0x2E, loByte w, hiByte w]
  | .rolAbx w => [0x3E, loByte w, hiByte w]
  | .rorAcc => [0x6A]
  | .rorZp z => [0x66, z]
  | .rorZpx z => [0x76, z]
  | .rorAbs w => [0x6E, loByte w, hiByte w]
  | .rorAbx w => [0x7E, loByte w, hiByte w]
  | .jmpAbs w => [0x4C, loByte w, hiByte w]
  | .jmpInd ptr => [0x6C, loByte ptr, hiByte ptr]
  | .jsrAbs w => [0x20, loByte w, hiByte w]
  | .rts => [0x60]
  | .bccRel off => [0x90, off]
  | .bcsRel off => [0xB0, off]
  | .beqRel off => [0xF0, off]
  | .bneRel off => [0xD0, off]
  | .bmiRel off => [0x30, off]
  | .bplRel off => [0x10, off]
  | .bvcRel off => [0x50, off]
  | .bvsRel off => [0x70, off]
  | .brk => [0x00]
  | .rti => [0x40]
  | .pha => [0x48]
  | .php => [0x08]
  | .pla => [0x68]
  | .plp => [0x28]
  | .clc => [0x18]
  | .sec => [0x38]
  | .cli => [0x58]
  | .sei => [0x78]
  | .cld => [0xD8]
  | .sed => [0xF8]
  | .clv => [0xB8]
  | .nop => [0xEA]
  | .sloZp z => [0x07, z]
  | .sloZpx z => [0x17, z]
  | .sloAbs w => [0x0F, loByte w, hiByte w]
  | .sloAbx w => [0x1F, loByte w, hiByte w]
  | .sloAby w => [0x1B, loByte w, hiByte w]
  | .sloIzx z => [0x03, z]
  | .sloIzy z => [0x13, z]
  | .rlaZp z => [0x27, z]
  | .rlaZpx z => [0x37, z]
  | .rlaAbs w => [0x2F, loByte w, hiByte w]
  | .rlaAbx w => [0x3F, loByte w, hiByte w]
  | .rlaAby w => [0x3B, loByte w, hiByte w]
  | .rlaIzx z => [0x23, z]
  | .rlaIzy z => [0x33, z]
  | .sreZp z => [0x47, z]
  | .sreZpx z => [0x57, z]
  | .sreAbs w => [0x4F, loByte w, hiByte w]
  | .sreAbx w => [0x5F, loByte w, hiByte w]
  | .sreAby w => [0x5B, loByte w, hiByte w]
  | .sreIzx z => [0x43, z]
  | .sreIzy z => [0x53, z]
  | .rraZp z => [0x67, z]
  | .rraZpx z => [0x77, z]
  | .rraAbs w => [0x6F, loByte w, hiByte w]
  | .rraAbx w => [0x7F, loByte w, hiByte w]
  | .rraAby w => [0x7B, loByte w, hiByte w]
  | .rraIzx z => [0x63, z]
  | .rraIzy z => [0x73, z]
  | .saxZp z => [0x87, z]
  | .saxZpy z => [0x97, z]
  | .saxAbs w => [0x8F, loByte w, hiByte w]
  | .saxIzx z => [0x83, z]
  | .laxZp z => [0xA7, z]
  | .laxZpy z => [0xB7, z]
  | .laxAbs w => [0xAF, loByte w, hiByte w]
  | .laxAby w => [0xBF, loByte w, hiByte w]
  | .laxIzx z => [0xA3, z]
  | .laxIzy z => [0xB3, z]
  | .dcpZp z => [0xC7, z]
  | .dcpZpx z => [0xD7, z]
  | .dcpAbs w => [0xCF, loByte w, hiByte w]
  | .dcpAbx w => [0xDF, loByte w, hiByte w]
  | .dcpAby w => [0xDB, loByte w, hiByte w]
  | .dcpIzx z => [0xC3, z]
  | .dcpIzy z => [0xD3, z]
  | .iscZp z => [0xE7, z]
  | .iscZpx z => [0xF7, z]
  | .iscAbs w => [0xEF, loByte w, hiByte w]
  | .iscAbx w => [0xFF, loByte w, hiByte w]
  | .iscAby w => [0xFB, loByte w, hiByte w]
  | .iscIzx z => [0xE3, z]
  | .iscIzy z => [0xF3, z]
  | .ancImm0B imm => [0x0B, imm]
  | .ancImm2B imm => [0x2B, imm]
  | .alrImm imm => [0x4B, imm]
  | .arrImm imm => [0x6B, imm]
  | .axsImm imm => [0xCB, imm]
  | .sbcImmEB imm => [0xEB, imm]
  | .nopImp1A => [0x1A]
  | .nopImp3A => [0x3A]
  | .nopImp5A => [0x5A]
  | .nopImp7A => [0x7A]
  | .nopImpDA => [0xDA]
  | .nopImpFA => [0xFA]
  | .nopImm80 imm => [0x80, imm]
  | .nopImm82 imm => [0x82, imm]
  | .nopImm89 imm => [0x89, imm]
  | .nopImmC2 imm => [0xC2, imm]
  | .nopImmE2 imm => [0xE2, imm]
  | .nopZp04 z => [0x04, z]
  | .nopZp44 z => [0x44, z]
  | .nopZp64 z => [0x64, z]
  | .nopZpx14 z => [0x14, z]
  | .nopZpx34 z => [0x34, z]
  | .nopZpx54 z => [0x54, z]
  | .nopZpx74 z => [0x74, z]
  | .nopZpxD4 z => [0xD4, z]
  | .nopZpxF4 z => [0xF4, z]
  | .nopAbs0C w => [0x0C, loByte w, hiByte w]
  | .nopAbx1C w => [0x1C, loByte w, hiByte w]
  | .nopAbx3C w => [0x3C, loByte w, hiByte w]
  | .nopAbx5C w => [0x5C, loByte w, hiByte w]
  | .nopAbx7C w => [0x7C, loByte w, hiByte w]
  | .nopAbxDC w => [0xDC, loByte w, hiByte w]
  | .nopAbxFC w => [0xFC, loByte w, hiByte w]
  | .aneImm imm => [0x8B, imm]
  | .lxaImm imm => [0xAB, imm]
  | .shaAby w => [0x9F, loByte w, hiByte w]
  | .shaIzy z => [0x93, z]
  | .shxAby w => [0x9E, loByte w, hiByte w]
  | .shyAbx w => [0x9C, loByte w, hiByte w]
  | .tasAby w => [0x9B, loByte w, hiByte w]
  | .lasAby w => [0xBB, loByte w, hiByte w]
  | .jam02 => [0x02]
  | .jam12 => [0x12]
  | .jam22 => [0x22]
  | .jam32 => [0x32]
  | .jam42 => [0x42]
  | .jam52 => [0x52]
  | .jam62 => [0x62]
  | .jam72 => [0x72]
  | .jam92 => [0x92]
  | .jamB2 => [0xB2]
  | .jamD2 => [0xD2]
  | .jamF2 => [0xF2]

/-- The `k`-th byte of an instruction whose bits are numbered from bit 0 of its first byte, as
spec/opcode_table.json numbers them: bits `8k+7..8k` of `w`, 0 above `nbits`. -/
def tableByte (nbits w k : Nat) : Byte :=
  BitVec.ofNat 8 (w % 2 ^ nbits / 2 ^ (8 * k))

/-- The instruction the decoder reads from an instruction of the opcode table whose bits are `w`: its bytes are
laid out at rising addresses, the first byte lowest, with zero bytes above `nbits` (R140). -/
def decodeTableWord (nbits w : Nat) : Option Instr :=
  match decode [tableByte nbits w 0, tableByte nbits w 1, tableByte nbits w 2] with
  | .ok (i, _) => some i
  | .error _ => none

end Sys2Proof
end

