-- ==== Sys2Proof/Config.lean ====
section
/-! DEFINITION. What one implementation fixes and the spec leaves OPEN (92_eei_decisions.md, "Open parameters, collected"):
the mixer function, which has no body here, and the parameters of one machine, which the state carries. The power-on
draws are arguments of `powerOn` (Machine/HostOps.lean). -/

namespace Sys2Proof

/-- `INT_CYCLES` (R7, R410, D11): "legal values 6 and 7, default 6". -/
inductive IntCycles where
  | six
  | seven
  deriving DecidableEq, Repr

/-- The number of bus cycles. -/
def IntCycles.count : IntCycles → Nat
  | .six => 6
  | .seven => 7

/-- `RESET_S_DELTA` (R7, R413, D15): "legal 0 or 3, default 3". -/
inductive ResetSDelta where
  | zero
  | three
  deriving DecidableEq, Repr

/-- By how much each of the three stack cycles of the reset sequence lowers S (R413; for `RESET_S_DELTA` = 0, log 11). -/
def ResetSDelta.perCycle : ResetSDelta → Byte
  | .zero => 0
  | .three => 1

/-- The open parameters of one machine (R7, 92_eei_decisions.md). They are a part of the state that no step changes, so
a statement about every state holds for every value of them (log 4, log 11). `RESET_CYCLES` is `INT_CYCLES` (D15). -/
structure ChipParams where
  /-- `MAGIC_ANE`, "any 8-bit constant" (R274, D19) -/
  magicAne         : Byte
  /-- `MAGIC_LXA`, "any 8-bit constant" (R275, D19) -/
  magicLxa         : Byte
  intCycles        : IntCycles
  resetSDelta      : ResetSDelta
  /-- `NOISE_TABLE_LEN`: an index at or beyond it uses entry 0 (R534, D27) -/
  noiseTableLen    : Nat
  /-- `BANK_MASK_SIMPLE` (R585, R593) -/
  bankMaskSimple   : Byte
  /-- `BANK_MASK_PRG8` (R585, R596) -/
  bankMaskPrg8     : Byte
  /-- `BANK_MASK_CHR1` (R585, R596) -/
  bankMaskChr1     : Byte
  /-- `SUPPORTED_MAPPERS`: the header ids that cartridge load accepts (R587, D30) -/
  supportedMappers : List Nat
  deriving DecidableEq, Repr

/-- The spec's defaults (R7), which State.reset carries. -/
def ChipParams.default : ChipParams :=
  { magicAne := 0xEE, magicLxa := 0xFF, intCycles := .six, resetSDelta := .three, noiseTableLen := 16
    bankMaskSimple := 0x0F, bankMaskPrg8 := 0x3F, bankMaskChr1 := 0xFF, supportedMappers := [0, 2, 4] }

/-- `MIX` (R548, D29): the open function from the five channel levels (pulse 1, pulse 2, triangle, noise,
delta-modulation) to an amplitude. It has no body: no proof can see a value of it (log 5). -/
opaque Config.mix : BitVec 4 → BitVec 4 → BitVec 4 → BitVec 4 → BitVec 7 → Rat

end Sys2Proof
end

