-- ==== Sys2Proof/Machine/State.lean ====
section
/-! DEFINITION. SystemState (10_state.md R30 to R69): every cell of the processor, the bus, the Picture Unit, the
Audio Unit and the cartridge, as plain data; the reasons a step can stop; and the state after reset. -/

namespace Sys2Proof.Machine

/-- A store of bytes: cells of the host's form, address and byte, in canonical form (Machine/Memory.lean). -/
abbrev Memory := List Host.Cell

/-! ### Processor Core -/

/-- `cur_op` (R40): the opcode of the instruction in progress, or the pseudo-opcode of a sequence that is no
instruction. The four `dma` values are the model's own names for the phases of the object-memory DMA of R108
when it is stepped by cycle (log 9). -/
inductive CurOp where
  | opcode (op : Byte)
  | seqNmi
  | seqIrq
  | seqReset
  | dmaWait
  | dmaAlign
  | dmaRead
  | dmaWrite
  deriving DecidableEq, Repr

/-- The scratch cells of the resumable micro-step state (R40): dead at every instruction boundary. -/
structure Micro where
  curOp   : CurOp
  lo      : Byte
  hi      : Byte
  ea      : Word
  val     : Byte
  crossed : Bool
  deriving DecidableEq, Repr

/-- The scratch cells at a boundary: the spec says "any" and never reads them (R40, R652, log 7). -/
def Micro.idle : Micro :=
  { curOp := .opcode 0x00, lo := 0x00, hi := 0x00, ea := 0x0000, val := 0x00, crossed := false }

/-- The Processor Core (R30 to R42). -/
structure Cpu where
  /-- accumulator (R30) -/
  a          : Byte
  /-- index register X (R31) -/
  x          : Byte
  /-- index register Y (R32) -/
  y          : Byte
  /-- stack pointer (R33) -/
  s          : Byte
  /-- program counter (R34) -/
  pc         : Word
  /-- carry (R35) -/
  c          : Bool
  /-- zero (R35) -/
  z          : Bool
  /-- interrupt-disable (R35) -/
  i          : Bool
  /-- decimal: stored, without effect (R37) -/
  d          : Bool
  /-- overflow (R35) -/
  v          : Bool
  /-- negative (R35) -/
  n          : Bool
  /-- level of the NMI line at the previous observation (R39) -/
  nmiPrev    : Bool
  /-- a rising edge of the NMI line waits for service (R39) -/
  nmiPending : Bool
  /-- bus cycles consumed since the last instruction boundary (R40) -/
  tick       : Nat
  /-- bus cycles since power-on, `cpu_cycles` (R41) -/
  cycles     : Nat
  /-- the processor is halted by a JAM opcode (R42) -/
  jammed     : Bool
  /-- the page an object-memory DMA waits to copy (R40, R63) -/
  dmaPage    : Option Byte
  /-- scratch cells of the micro-step state (R40) -/
  micro      : Micro
  deriving DecidableEq, Repr

/-! ### Controllers -/

/-- One controller port (R45). -/
structure Pad where
  buttons : Byte
  shift   : Byte
  deriving DecidableEq, Repr

/-! ### Picture Unit -/

/-- One sprite unit (R46): an object of the current scanline. -/
structure SpriteUnit where
  lo     : Byte
  hi     : Byte
  attr   : Byte
  x      : Byte
  isZero : Bool
  deriving DecidableEq, Repr

/-- A transparent sprite unit (R46, R472). -/
def SpriteUnit.empty : SpriteUnit :=
  { lo := 0x00, hi := 0x00, attr := 0x00, x := 0x00, isZero := false }

/-- The Picture Unit (R46, R47, R50 to R57). -/
structure Ppu where
  /-- current scanline, 0..261 -/
  scanline    : Nat
  /-- current dot within the scanline, 0..340 -/
  dot         : Nat
  /-- completed frames -/
  frame       : Nat
  /-- parity of `frame` -/
  oddFrame    : Bool
  /-- colour index of each visible pixel of the frame being drawn, at `256 * y + x` -/
  pixels      : Cells 6
  /-- the snapshot handed off at the end of vertical blank (R455) -/
  frameOut    : Cells 6
  /-- a completed frame waits for the host -/
  frameReady  : Bool
  /-- name-table memory, 0x800 bytes -/
  vram        : Memory
  /-- palette memory, 32 cells -/
  palette     : Cells 6
  /-- object-attribute memory, 256 bytes, an attribute byte whole; its bits 4:2 read 0 (R54, R113, log 13) -/
  oam         : Memory
  /-- secondary object memory, 32 bytes -/
  oam2        : Memory
  /-- objects in `oam2`, 0..8 -/
  oam2Count   : Nat
  /-- the first object of `oam2` is object 0 -/
  oam2Has0    : Bool
  /-- control register (R50) -/
  ctrl        : Byte
  /-- mask register (R51) -/
  mask        : Byte
  /-- vertical blank (R52, R454) -/
  vblank      : Bool
  /-- sprite-zero hit (R460) -/
  spr0Hit     : Bool
  /-- sprite overflow (R471) -/
  sprOverflow : Bool
  /-- object memory address (R53) -/
  oamAddr     : Byte
  /-- current video address (R47) -/
  v           : BitVec 15
  /-- temporary video address (R47) -/
  t           : BitVec 15
  /-- fine horizontal scroll -/
  fineX       : BitVec 3
  /-- write toggle of the address latch: set after a first write -/
  w           : Bool
  /-- data-port read buffer (R466) -/
  readBuf     : Byte
  /-- last value written to or read from any register of the window -/
  ioLatch     : Byte
  /-- fetched tile index -/
  nt          : Byte
  /-- `at`: the selected attribute bits -/
  attr        : BitVec 2
  /-- fetched low pattern byte -/
  ptLo        : Byte
  /-- fetched high pattern byte -/
  ptHi        : Byte
  /-- background shift registers (R458) -/
  bgLo        : BitVec 16
  bgHi        : BitVec 16
  atLo        : BitVec 16
  atHi        : BitVec 16
  /-- the eight sprite units -/
  sprites     : List SpriteUnit
  deriving DecidableEq, Repr

/-! ### Audio Unit -/

/-- One pulse channel (R58, R59). -/
structure Pulse where
  enabled  : Bool
  duty     : BitVec 2
  halt     : Bool
  constVol : Bool
  vol      : BitVec 4
  envStart : Bool
  envDiv   : BitVec 4
  envDecay : BitVec 4
  swEn     : Bool
  swPeriod : BitVec 3
  swNeg    : Bool
  swShift  : BitVec 3
  swReload : Bool
  swDiv    : BitVec 3
  period   : BitVec 11
  timer    : BitVec 11
  seq      : BitVec 3
  length   : Byte
  deriving DecidableEq, Repr

/-- The triangle channel (R58, R60). -/
structure Triangle where
  enabled      : Bool
  ctrl         : Bool
  linReloadVal : BitVec 7
  linReload    : Bool
  linear       : BitVec 7
  period       : BitVec 11
  timer        : BitVec 11
  seq          : BitVec 5
  length       : Byte
  deriving DecidableEq, Repr

/-- The noise channel (R58, R61). -/
structure Noise where
  enabled   : Bool
  halt      : Bool
  constVol  : Bool
  vol       : BitVec 4
  envStart  : Bool
  envDiv    : BitVec 4
  envDecay  : BitVec 4
  mode      : Bool
  periodIdx : BitVec 4
  timer     : BitVec 12
  lfsr      : BitVec 15
  length    : Byte
  deriving DecidableEq, Repr

/-- The delta-modulation channel (R58, R62). -/
structure Dmc where
  enabled   : Bool
  irqEn     : Bool
  loop      : Bool
  rateIdx   : BitVec 4
  timer     : BitVec 9
  level     : BitVec 7
  addrReg   : Byte
  lenReg    : Byte
  curAddr   : Word
  bytesLeft : BitVec 12
  buf       : Byte
  bufFull   : Bool
  shift     : Byte
  bitsLeft  : BitVec 4
  silence   : Bool
  irqFlag   : Bool
  deriving DecidableEq, Repr

/-- The frame sequencer (R58, R65, R545). -/
structure FrameSeq where
  /-- set: the 5-step schedule -/
  mode       : Bool
  irqInhibit : Bool
  /-- `fs_cycle`: CPU cycles since the last restart -/
  cycle      : Nat
  frameIrq   : Bool
  /-- 0..5 (R546) -/
  resetDelay : Nat
  deriving DecidableEq, Repr

/-- The five channel levels of a tick, the architectural output (R548). -/
structure Levels where
  p1 : BitVec 4
  p2 : BitVec 4
  t  : BitVec 4
  n  : BitVec 4
  d  : BitVec 7
  deriving DecidableEq, Repr

/-- The Audio Unit (R58 to R65). -/
structure Apu where
  pulse1   : Pulse
  pulse2   : Pulse
  triangle : Triangle
  noise    : Noise
  dmc      : Dmc
  seq      : FrameSeq
  /-- the channel levels of the last tick, of which `amplitude` is `MIX` (R548, log 5) -/
  levels   : Levels
  deriving DecidableEq, Repr

/-! ### Mapper and cartridge -/

/-- The registers of the ScanlineIrq variant (R596). `r0` to `r5` hold values under `BANK_MASK_CHR1`, `r6` and `r7` values
under `BANK_MASK_PRG8` (R585). -/
structure ScanlineRegs where
  bankSelect : Byte
  r0         : Byte
  r1         : Byte
  r2         : Byte
  r3         : Byte
  r4         : Byte
  r5         : Byte
  r6         : Byte
  r7         : Byte
  /-- clear: Vertical; set: Horizontal -/
  mirror     : Bool
  ramEnable  : Bool
  ramProtect : Bool
  irqLatch   : Byte
  irqCounter : Byte
  irqReload  : Bool
  irqEnabled : Bool
  irqFlag    : Bool
  deriving DecidableEq, Repr

/-- The closed set of mapper variants, each with its mutable registers (R580, R589, R590, R593, R596). -/
inductive Variant where
  | empty
  | fixed
  /-- `bank` holds a value under `BANK_MASK_SIMPLE` (R585, R593) -/
  | simpleBanked (bank : Byte)
  | scanlineIrq (regs : ScanlineRegs)
  deriving DecidableEq, Repr

/-- The mirroring mode of a cartridge header (R66). -/
inductive HeaderMirroring where
  | horizontal
  | vertical
  | fourScreen
  deriving DecidableEq, Repr

/-- `MirroringMode` (R111, R581). -/
inductive Mirroring where
  | horizontal
  | vertical
  | oneScreenLower
  | oneScreenUpper
  | fourScreen
  deriving DecidableEq, Repr

/-- The cartridge: its variant and the storage all variants share (R66, R67, R586). -/
structure Cartridge where
  variant      : Variant
  /-- program storage, `prgLen` bytes, immutable after load -/
  prg          : Memory
  prgLen       : Nat
  /-- character storage, `chrLen` bytes, written only when `chrIsRam` -/
  chr          : Memory
  chrLen       : Nat
  chrIsRam     : Bool
  /-- expansion or save memory, 0x2000 bytes -/
  prgRam       : Memory
  /-- the two extra name tables, 0x800 bytes, present only in a FourScreen cartridge (R586): elsewhere nothing is listed -/
  ntExtra      : Memory
  mirroringHdr : HeaderMirroring
  mapperId     : Nat
  hasBattery   : Bool
  deriving DecidableEq, Repr

/-! ### The whole -/

/-- SystemState (R2, R68). -/
structure State where
  cpu     : Cpu
  /-- internal RAM, 0x800 bytes (R43) -/
  ram     : Memory
  /-- the last value driven onto the bus (R44) -/
  openBus : Byte
  pad1    : Pad
  pad2    : Pad
  strobe  : Bool
  ppu     : Ppu
  apu     : Apu
  cart    : Cartridge
  /-- the open parameters of this machine, which no step changes (R7, log 4, log 11) -/
  chip    : ChipParams
  deriving DecidableEq, Repr

/-- Why a step faults. There is no constructor: "There is no category of unrecoverable runtime error inside the
step loop" (R400, R641); nothing raises a fault. -/
inductive Fault where
  deriving DecidableEq, Repr

/-- Why a step is refused. -/
inductive Refusal where
  /-- An instruction that the model gives no meaning, by its mnemonic. Only arms of `exec` could raise it and none
  does, since all 256 opcode bytes have a meaning. Safe. -/
  | notModelled (mnemonic : String)
  deriving DecidableEq, Repr

/-! ### Power-on values (R652) and the state after reset -/

/-- The Processor Core at power-on, before the reset sequence (R652, log 3). -/
def Cpu.powerOn : Cpu :=
  { a := 0x00, x := 0x00, y := 0x00, s := 0x00, pc := 0x0000
    c := false, z := false, i := false, d := false, v := false, n := false
    nmiPrev := false, nmiPending := false, tick := 0, cycles := 0, jammed := false
    dmaPage := none, micro := .idle }

/-- A controller port at power-on (R45, R652). -/
def Pad.powerOn : Pad := { buttons := 0x00, shift := 0x00 }

/-- Secondary object memory at power-on and at the start of an evaluation: 0xFF each (R46, R471). -/
def oam2Cleared : Memory := (List.range 32).map fun k => (k, 0xFF)

/-- The Picture Unit at power-on (R46, R652), its memories holding nothing listed: the draws are put in by
`powerOn`. -/
def Ppu.powerOn : Ppu :=
  { scanline := 0, dot := 0, frame := 0, oddFrame := false
    pixels := [], frameOut := [], frameReady := false
    vram := [], palette := [], oam := [], oam2 := oam2Cleared, oam2Count := 0, oam2Has0 := false
    ctrl := 0x00, mask := 0x00, vblank := false, spr0Hit := false, sprOverflow := false
    oamAddr := 0x00, v := 0, t := 0, fineX := 0, w := false, readBuf := 0x00, ioLatch := 0x00
    nt := 0x00, attr := 0, ptLo := 0x00, ptHi := 0x00, bgLo := 0, bgHi := 0, atLo := 0, atHi := 0
    sprites := List.replicate 8 .empty }

/-- A pulse channel at power-on: all zero (R58). -/
def Pulse.powerOn : Pulse :=
  { enabled := false, duty := 0, halt := false, constVol := false, vol := 0
    envStart := false, envDiv := 0, envDecay := 0
    swEn := false, swPeriod := 0, swNeg := false, swShift := 0, swReload := false, swDiv := 0
    period := 0, timer := 0, seq := 0, length := 0x00 }

/-- The triangle channel at power-on: all zero (R58). -/
def Triangle.powerOn : Triangle :=
  { enabled := false, ctrl := false, linReloadVal := 0, linReload := false, linear := 0
    period := 0, timer := 0, seq := 0, length := 0x00 }

/-- The noise channel at power-on: all zero but the shift register, 1 (R58). -/
def Noise.powerOn : Noise :=
  { enabled := false, halt := false, constVol := false, vol := 0
    envStart := false, envDiv := 0, envDecay := 0
    mode := false, periodIdx := 0, timer := 0, lfsr := 1, length := 0x00 }

/-- The delta-modulation channel at power-on: all zero but `bits_left` = 8 and `silence` = 1 (R58). -/
def Dmc.powerOn : Dmc :=
  { enabled := false, irqEn := false, loop := false, rateIdx := 0, timer := 0, level := 0
    addrReg := 0x00, lenReg := 0x00, curAddr := 0x0000, bytesLeft := 0, buf := 0x00, bufFull := false
    shift := 0x00, bitsLeft := 8, silence := true, irqFlag := false }

/-- The frame sequencer at power-on: 4-step, interrupt not inhibited (R58, D28). -/
def FrameSeq.powerOn : FrameSeq :=
  { mode := false, irqInhibit := false, cycle := 0, frameIrq := false, resetDelay := 0 }

/-- The Audio Unit at power-on (R58, R652): the amplitude is that of five levels 0. -/
def Apu.powerOn : Apu :=
  { pulse1 := .powerOn, pulse2 := .powerOn, triangle := .powerOn, noise := .powerOn, dmc := .powerOn
    seq := .powerOn, levels := { p1 := 0, p2 := 0, t := 0, n := 0, d := 0 } }

/-- The registers of ScanlineIrq at power-on: all 0 but `ram_enable` (R596). -/
def ScanlineRegs.powerOn : ScanlineRegs :=
  { bankSelect := 0x00, r0 := 0x00, r1 := 0x00, r2 := 0x00, r3 := 0x00, r4 := 0x00, r5 := 0x00
    r6 := 0x00, r7 := 0x00
    mirror := false, ramEnable := true, ramProtect := false, irqLatch := 0x00, irqCounter := 0x00
    irqReload := false, irqEnabled := false, irqFlag := false }

/-- No cartridge: the Empty variant, which owns no storage (R589, R634). It has no header: `mirroringHdr`, `mapperId`,
`hasBattery` and `chrIsRam` are DESIGN CHOICE, log 2; `mirroring()` is R589's own and reads none of them. -/
def Cartridge.empty : Cartridge :=
  { variant := .empty, prg := [], prgLen := 0, chr := [], chrLen := 0, chrIsRam := false
    prgRam := [], ntExtra := [], mirroringHdr := .horizontal, mapperId := 0, hasBattery := false }

/-- A fresh SystemState before its reset sequence (R650, R652), with the given cartridge and every draw of
power-on memory contents zero (log 1). -/
def State.powerOn (cart : Cartridge) : State :=
  { cpu := .powerOn, ram := [], openBus := 0x00, pad1 := .powerOn, pad2 := .powerOn, strobe := false
    ppu := .powerOn, apu := .powerOn, cart := cart, chip := .default }

/-- The machine right after reset, no cartridge loaded: the power-on state built with the Empty variant (R589,
R634) after the six cycles of the reset sequence (R413, R650): S = 0xFD, I = 0, `cpu_cycles` = 6, (scanline,
dot) = (0, 18), `fs_cycle` = 6, PC from the vector 0xFFFC, which nothing claims and which therefore reads as
the open bus, 0x00 (R84). The audio cells are what six ticks of R520 make of their power-on values.
The statement `ResetStateFollowsThePowerOnValues` says it equal to the reset sequence run on `State.powerOn .empty`
(log 2). -/
def State.reset : State :=
  { State.powerOn .empty with
    cpu := { Cpu.powerOn with s := 0xFD, cycles := 6 }
    ppu := { Ppu.powerOn with dot := 18 }
    apu :=
      { Apu.powerOn with
        pulse1 := { Pulse.powerOn with seq := 3 }
        pulse2 := { Pulse.powerOn with seq := 3 }
        noise := { Noise.powerOn with timer := 2, lfsr := 0x2000 }
        dmc := { Dmc.powerOn with timer := 422, bitsLeft := 7 }
        seq := { FrameSeq.powerOn with cycle := 6 }
        levels := { p1 := 0, p2 := 0, t := 15, n := 0, d := 0 } } }

end Sys2Proof.Machine
end

