-- ==== Sys2Proof/Machine/Memory.lean ====
section
/-! DEFINITION. Sparse stores: what an unlisted cell reads as, reading, writing, and the canonical form.

One definition for every memory of the machine: internal RAM, name-table memory, object memory, palette,
cartridge storage and the two pixel buffers. The spec leaves the power-on contents of the first four a draw (R652,
U1); an unlisted cell reads as zero, a choice the spec allows (D17: "a model may fix the draw to all-zero"), log 1. -/

namespace Sys2Proof.Machine

/-- What a cell that is not listed reads as (log 1). -/
def unlisted (width : Nat) : BitVec width := 0

/-- The value of cell `k`. -/
def Cells.read {width : Nat} : Cells width → Nat → BitVec width
  | [], _ => unlisted width
  | (j, u) :: rest, k => if k = j then u else if k < j then unlisted width else Cells.read rest k

/-- Puts `v` in front of the rest, or leaves it out where it is what an unlisted cell reads as. -/
def Cells.consCell {width : Nat} (k : Nat) (v : BitVec width) (rest : Cells width) : Cells width :=
  if v = unlisted width then rest else (k, v) :: rest

/-- The store with cell `k` set to `v`, in canonical form if it was. -/
def Cells.write {width : Nat} : Cells width → Nat → BitVec width → Cells width
  | [], k, v => Cells.consCell k v []
  | (j, u) :: rest, k, v =>
    if k = j then Cells.consCell k v rest
    else if k < j then Cells.consCell k v ((j, u) :: rest)
    else (j, u) :: Cells.write rest k v

/-- Writes values at `k`, `k + 1`, … in turn. -/
def Cells.writeList {width : Nat} (m : Cells width) (k : Nat) : List (BitVec width) → Cells width
  | [] => m
  | v :: vs => Cells.writeList (Cells.write m k v) (k + 1) vs

/-- The store that holds the given values at 0, 1, …, in canonical form. -/
def Cells.ofList {width : Nat} (vs : List (BitVec width)) (k : Nat := 0) : Cells width :=
  match vs with
  | [] => []
  | v :: rest => Cells.consCell k v (Cells.ofList rest (k + 1))

/-- The first `n` values of a store. -/
def Cells.toList {width : Nat} (m : Cells width) (n : Nat) : List (BitVec width) :=
  (List.range n).map (Cells.read m)

/-- The canonical form: indices strictly rising, no value equal to what an unlisted cell reads as. -/
abbrev Cells.wf {width : Nat} (m : Cells width) : Prop :=
  m.Pairwise (fun p q => p.1 < q.1) ∧ ∀ p ∈ m, p.2 ≠ unlisted width

/-- The canonical form of a byte memory. -/
abbrev Memory.wf (m : Memory) : Prop := Cells.wf (width := 8) m

/-- Every listed index is below `n`: the store holds nothing outside its `n` cells. -/
abbrev Cells.below {width : Nat} (m : Cells width) (n : Nat) : Prop := ∀ p ∈ m, p.1 < n

end Sys2Proof.Machine
end

