-- ==== Sys2Proof/Machine/Tables.lean ====
section
/-! DEFINITION. The values of R7 that the spec settles, and the immutable tables (R68: "immutable static data"). The
parameters it leaves open stand in Config.lean. -/

namespace Sys2Proof.Machine

/-! ### Fixed values of R7 -/

/-- `VEC_NMI` (R401). -/
def vecNmi : Word := 0xFFFA

/-- `VEC_RESET` (R401). -/
def vecReset : Word := 0xFFFC

/-- `VEC_IRQ`, the vector of IRQ and BRK (R401). -/
def vecIrq : Word := 0xFFFE

/-- `DOTS_PER_SCANLINE` (R451). -/
def dotsPerScanline : Nat := 341

/-- `SCANLINES_PER_FRAME` (R451). -/
def scanlinesPerFrame : Nat := 262

/-! ### Audio tables -/

/-- `LENGTH_TABLE[0..31]` (R527). -/
def lengthTable : List Byte :=
  [10, 254, 20, 2, 40, 4, 80, 6] ++ [160, 8, 60, 10, 14, 12, 26, 14] ++
  [12, 16, 24, 18, 48, 20, 96, 22] ++ [192, 24, 72, 26, 16, 28, 32, 30]

/-- `LENGTH_TABLE` at a five-bit index. -/
def lengthEntry (i : BitVec 5) : Byte := lengthTable.getD i.toNat 0

/-- `DUTY[0..3]`, each as its values at sequence positions 0..7 (R530). -/
def dutyTable : List (List Bool) :=
  [[false, true, false, false, false, false, false, false],
   [false, true, true, false, false, false, false, false],
   [false, true, true, true, true, false, false, false],
   [true, false, false, true, true, true, true, true]]

/-- `DUTY[d][s]` (R530). -/
def dutyBit (d : BitVec 2) (s : BitVec 3) : Bool := (dutyTable.getD d.toNat []).getD s.toNat false

/-- `TRI_SEQ[0..31]` (R532). -/
def triTable : List (BitVec 4) :=
  [15, 14, 13, 12, 11, 10, 9, 8] ++ [7, 6, 5, 4, 3, 2, 1, 0] ++
  [0, 1, 2, 3, 4, 5, 6, 7] ++ [8, 9, 10, 11, 12, 13, 14, 15]

/-- `TRI_SEQ[s]` (R532). -/
def triLevel (s : BitVec 5) : BitVec 4 := triTable.getD s.toNat 0

/-- `NOISE_PERIOD[0..15]`, in CPU cycles (R534). -/
def noiseTable : List (BitVec 12) :=
  [4, 8, 16, 32, 64, 96, 128, 160] ++ [202, 254, 380, 508, 762, 1016, 2034, 4068]

/-- `NoisePeriod(i)` with a table of `tableLen` entries: an index at or beyond `NOISE_TABLE_LEN` uses entry 0 (R534). -/
def noisePeriod (tableLen : Nat) (i : BitVec 4) : BitVec 12 :=
  if i.toNat < tableLen then noiseTable.getD i.toNat 4 else noiseTable.getD 0 4

/-- `DMC_RATE[0..15]`, in CPU cycles per output bit (R540). -/
def dmcRateTable : List (BitVec 9) :=
  [428, 380, 340, 320, 286, 254, 226, 214] ++ [190, 160, 142, 128, 106, 84, 72, 54]

/-- `DMC_RATE[i]` (R540). -/
def dmcRate (i : BitVec 4) : BitVec 9 := dmcRateTable.getD i.toNat 428

end Sys2Proof.Machine
end

