-- ==== Sys2Proof/Machine/Mapper.lean ====
section
/-! DEFINITION. The Mapper (63_mapper.md): the operations of the contract (R581) by cases on the variant (R580). Every
operation is total and none fails (R582, R610). -/

namespace Sys2Proof.Machine

/-- `Banked(storage, bank, bank_size, a, base)` (R584): the byte at
`(bank * bank_size + (a - base)) mod storage.len()`. No loaded cartridge has a storage of length 0 (log 15). -/
def banked (storage : Memory) (len bank bankSize a base : Nat) : Byte :=
  Cells.read storage ((bank * bankSize + (a - base)) % len)

/-! ### Program side -/

/-- The bank of 0x2000 bytes that ScanlineIrq shows at a CPU address 0x8000..0xFFFF (R598). -/
def ScanlineRegs.prgBank (r : ScanlineRegs) (prgLen n : Nat) : Nat :=
  let n8 := prgLen / 0x2000
  if n < 0xA000 then (if r.bankSelect.getLsbD 6 then n8 - 2 else r.r6.toNat)
  else if n < 0xC000 then r.r7.toNat
  else if n < 0xE000 then (if r.bankSelect.getLsbD 6 then r.r6.toNat else n8 - 2)
  else n8 - 1

/-- `cpu_read(a)` (R581, R589, R590, R593, R598, R603). -/
def cpuRead (c : Cartridge) (a : Word) : Option Byte :=
  let n := a.toNat
  match c.variant with
  | .empty => none
  | .fixed =>
    if n < 0x6000 then none
    else if n < 0x8000 then some (Cells.read c.prgRam (n - 0x6000))
    else some (banked c.prg c.prgLen 0 0x8000 n 0x8000)
  | .simpleBanked bank =>
    if n < 0x6000 then none
    else if n < 0x8000 then some (Cells.read c.prgRam (n - 0x6000))
    else if n < 0xC000 then some (banked c.prg c.prgLen bank.toNat 0x4000 n 0x8000)
    else some (banked c.prg c.prgLen (c.prgLen / 0x4000 - 1) 0x4000 n 0xC000)
  | .scanlineIrq r =>
    if n < 0x6000 then none
    else if n < 0x8000 then
      (if r.ramEnable then some (Cells.read c.prgRam (n - 0x6000)) else none)
    else some (banked c.prg c.prgLen (r.prgBank c.prgLen n) 0x2000 n (n / 0x2000 * 0x2000))

/-- The write of a ScanlineIrq register, chosen by `a & 0xE001`; a bank value is masked (R597, R585). -/
def ScanlineRegs.write (r : ScanlineRegs) (p : ChipParams) (a : Word) (v : Byte) : ScanlineRegs :=
  let sel := a &&& 0xE001
  if sel = 0x8000 then { r with bankSelect := v }
  else if sel = 0x8001 then
    match (r.bankSelect.extractLsb' 0 3).toNat with
    | 0 => { r with r0 := v &&& p.bankMaskChr1 }
    | 1 => { r with r1 := v &&& p.bankMaskChr1 }
    | 2 => { r with r2 := v &&& p.bankMaskChr1 }
    | 3 => { r with r3 := v &&& p.bankMaskChr1 }
    | 4 => { r with r4 := v &&& p.bankMaskChr1 }
    | 5 => { r with r5 := v &&& p.bankMaskChr1 }
    | 6 => { r with r6 := v &&& p.bankMaskPrg8 }
    | _ => { r with r7 := v &&& p.bankMaskPrg8 }
  else if sel = 0xA000 then { r with mirror := v.getLsbD 0 }
  else if sel = 0xA001 then { r with ramEnable := v.getLsbD 7, ramProtect := v.getLsbD 6 }
  else if sel = 0xC000 then { r with irqLatch := v }
  else if sel = 0xC001 then { r with irqCounter := 0x00, irqReload := true }
  else if sel = 0xE000 then { r with irqEnabled := false, irqFlag := false }
  else if sel = 0xE001 then { r with irqEnabled := true }
  else r

/-- `prg_ram[a - 0x6000] <- v` (R590, R593, R603). -/
def Cartridge.writePrgRam (c : Cartridge) (n : Nat) (v : Byte) : Cartridge :=
  { c with prgRam := Cells.write c.prgRam (n - 0x6000) v }

/-- `cpu_write(a, v)` (R581, R589, R590, R593, R597, R603): unclaimed writes are ignored. `p` gives the bank masks. -/
def cpuWrite (c : Cartridge) (p : ChipParams) (a : Word) (v : Byte) : Cartridge :=
  let n := a.toNat
  match c.variant with
  | .empty => c
  | .fixed =>
    if n < 0x6000 then c else if n < 0x8000 then c.writePrgRam n v else c
  | .simpleBanked _ =>
    if n < 0x6000 then c
    else if n < 0x8000 then c.writePrgRam n v
    else { c with variant := .simpleBanked (v &&& p.bankMaskSimple) }
  | .scanlineIrq r =>
    if n < 0x6000 then c
    else if n < 0x8000 then (if r.ramEnable && !r.ramProtect then c.writePrgRam n v else c)
    else { c with variant := .scanlineIrq (r.write p a v) }

/-! ### Character side -/

/-- The 0x400-byte bank number of ScanlineIrq for `a' = a XOR (C << 12)` (R599). -/
def ScanlineRegs.chrBank (r : ScanlineRegs) (a' : BitVec 14) : Nat :=
  let n := a'.toNat
  if n < 0x0800 then ((r.r0 &&& 0xFE) ||| (a'.extractLsb' 10 1).setWidth 8).toNat
  else if n < 0x1000 then ((r.r1 &&& 0xFE) ||| (a'.extractLsb' 10 1).setWidth 8).toNat
  else if n < 0x1400 then r.r2.toNat
  else if n < 0x1800 then r.r3.toNat
  else if n < 0x1C00 then r.r4.toNat
  else r.r5.toNat

/-- The index into `chr` that a pattern address reaches (R590, R593, R599). -/
def chrIndex (c : Cartridge) (a : BitVec 14) : Nat :=
  match c.variant with
  | .scanlineIrq r =>
    let a' := if r.bankSelect.getLsbD 7 then a ^^^ 0x1000 else a
    (r.chrBank a' * 0x400 + a.toNat % 0x400) % c.chrLen
  | _ => a.toNat % c.chrLen

/-- `ppu_read(a)` for a pattern address 0x0000..0x1FFF (R581, R589, R590, R593, R599). -/
def ppuChrRead (c : Cartridge) (a : BitVec 14) : Option Byte :=
  match c.variant with
  | .empty => none
  | _ => some (Cells.read c.chr (chrIndex c a))

/-- `ppu_write(a, v)` for a pattern address: stores only where `chr` is RAM (R581, R586). -/
def ppuChrWrite (c : Cartridge) (a : BitVec 14) (v : Byte) : Cartridge :=
  match c.variant with
  | .empty => c
  | _ => if c.chrIsRam then { c with chr := Cells.write c.chr (chrIndex c a) v } else c

/-- The mirroring mode of a header (R590, R593). -/
def HeaderMirroring.mode : HeaderMirroring → Mirroring
  | .horizontal => .horizontal
  | .vertical => .vertical
  | .fourScreen => .fourScreen

/-- `mirroring()` (R581, R589, R590, R593, R600). -/
def mirroring (c : Cartridge) : Mirroring :=
  match c.variant with
  | .empty => .horizontal
  | .scanlineIrq r =>
    if c.mirroringHdr = .fourScreen then .fourScreen
    else if r.mirror then .horizontal else .vertical
  | _ => c.mirroringHdr.mode

/-! ### Hooks and the interrupt request -/

/-- The scanline counter of ScanlineIrq (R605). -/
def ScanlineRegs.clock (r : ScanlineRegs) : ScanlineRegs :=
  let r :=
    if r.irqCounter = 0x00 ∨ r.irqReload then { r with irqCounter := r.irqLatch, irqReload := false }
    else { r with irqCounter := r.irqCounter - 1 }
  if r.irqCounter = 0x00 ∧ r.irqEnabled then { r with irqFlag := true } else r

/-- `on_scanline(ended, re)` (R581, R583, R605). -/
def onScanline (c : Cartridge) (ended : Nat) (re : Bool) : Cartridge :=
  match c.variant with
  | .scanlineIrq r =>
    if re ∧ (ended ≤ 239 ∨ ended = 261) then { c with variant := .scanlineIrq r.clock } else c
  | _ => c

/-- `on_cpu_cycle()`: no variant of the spec uses it (R583). -/
def onCpuCycle (c : Cartridge) : Cartridge := c

/-- `mapper.irq_flag`: always 0 for variants without the capability (R403, R589, R590, R593, R596). -/
def mapperIrq (c : Cartridge) : Bool :=
  match c.variant with
  | .scanlineIrq r => r.irqFlag
  | _ => false

end Sys2Proof.Machine
end

