-- ==== Sys2Proof/Machine/AudioUnit.lean ====
section
/-! DEFINITION. The Audio Unit (62_audio_unit.md): one tick, the five channels, the frame sequencer, and the registers
of its part of the I/O window. Every value of every register is accepted (R534: no value faults). -/

namespace Sys2Proof.Machine

/-! ### Units shared by several channels -/

/-- The envelope's next (start, divider, decay) from the halt bit and the volume field (R525). -/
def envelopeClock (start halt : Bool) (vol div decay : BitVec 4) : BitVec 4 × BitVec 4 :=
  if start then (vol, 15)
  else if div = 0 then
    (vol, if decay ≠ 0 then decay - 1 else if halt then 15 else decay)
  else (div - 1, decay)

/-- `EnvelopeClock(pulse)` (R525). -/
def Pulse.envelopeClock (p : Pulse) : Pulse :=
  let e := Machine.envelopeClock p.envStart p.halt p.vol p.envDiv p.envDecay
  { p with envStart := false, envDiv := e.1, envDecay := e.2 }

/-- `EnvelopeClock(noise)` (R525). -/
def Noise.envelopeClock (n : Noise) : Noise :=
  let e := Machine.envelopeClock n.envStart n.halt n.vol n.envDiv n.envDecay
  { n with envStart := false, envDiv := e.1, envDecay := e.2 }

/-- `EnvelopeVolume(ch)` (R525). -/
def envelopeVolume (constVol : Bool) (vol decay : BitVec 4) : BitVec 4 := if constVol then vol else decay

/-- `LengthClock` on a length counter and its halt bit (R526). -/
def lengthClock (halt : Bool) (length : Byte) : Byte :=
  if halt = false ∧ length ≠ 0 then length - 1 else length

/-! ### Pulse channels -/

/-- `PulseTimerTick(n)` (R528). -/
def Pulse.timerTick (p : Pulse) : Pulse :=
  if p.timer = 0 then { p with timer := p.period, seq := p.seq + 1 } else { p with timer := p.timer - 1 }

/-- `SweepTarget(n)` (R537): `first` says that the channel is pulse 1. A negative result is taken as 0. -/
def Pulse.sweepTarget (p : Pulse) (first : Bool) : Nat :=
  let c := (p.period >>> p.swShift.toNat).toNat
  if p.swNeg then (if first then p.period.toNat - c - 1 else p.period.toNat - c) else p.period.toNat + c

/-- `SweepClock(n)` (R537). -/
def Pulse.sweepClock (p : Pulse) (first : Bool) : Pulse :=
  let target := p.sweepTarget first
  let p :=
    { p with
      period :=
        if p.swDiv = 0 ∧ p.swEn ∧ p.swShift ≠ 0 ∧ 8 ≤ p.period.toNat ∧ target ≤ 0x7FF then BitVec.ofNat 11 target
        else p.period }
  if p.swDiv = 0 ∨ p.swReload then { p with swDiv := p.swPeriod, swReload := false }
  else { p with swDiv := p.swDiv - 1 }

/-- `PulseOut(n)` (R529). -/
def Pulse.out (p : Pulse) (first : Bool) : BitVec 4 :=
  if p.length = 0 ∨ dutyBit p.duty p.seq = false ∨ p.period.toNat < 8 ∨ 0x7FF < p.sweepTarget first then 0
  else envelopeVolume p.constVol p.vol p.envDecay

/-- `LengthClock(pulse)` (R526). -/
def Pulse.lengthClock (p : Pulse) : Pulse := { p with length := Machine.lengthClock p.halt p.length }

/-! ### Triangle channel -/

/-- `TriangleTimerTick()` (R531). -/
def Triangle.timerTick (t : Triangle) : Triangle :=
  if t.timer = 0 then
    { t with timer := t.period, seq := if t.length ≠ 0 ∧ t.linear ≠ 0 then t.seq + 1 else t.seq }
  else { t with timer := t.timer - 1 }

/-- `TriangleOut()` (R532). -/
def Triangle.out (t : Triangle) : BitVec 4 := triLevel t.seq

/-- `LinearClock()` (R533). -/
def Triangle.linearClock (t : Triangle) : Triangle :=
  { t with
    linear := if t.linReload then t.linReloadVal else if t.linear ≠ 0 then t.linear - 1 else t.linear
    linReload := t.linReload && t.ctrl }

/-- `LengthClock(triangle)` (R526): its `halt` is its `ctrl` bit. -/
def Triangle.lengthClock (t : Triangle) : Triangle := { t with length := Machine.lengthClock t.ctrl t.length }

/-! ### Noise channel -/

/-- One clock of the 15-bit shift register (R535). -/
def lfsrNext (mode : Bool) (lfsr : BitVec 15) : BitVec 15 :=
  let fb := xor (lfsr.getLsbD 0) (if mode then lfsr.getLsbD 6 else lfsr.getLsbD 1)
  BitVec.ofBool fb ++ lfsr.extractLsb' 1 14

/-- `NoiseTimerTick()` (R535), with `NOISE_TABLE_LEN` entries in the table (R534). -/
def Noise.timerTick (n : Noise) (tableLen : Nat) : Noise :=
  if n.timer = 0 then { n with timer := noisePeriod tableLen n.periodIdx - 1, lfsr := lfsrNext n.mode n.lfsr }
  else { n with timer := n.timer - 1 }

/-- `NoiseOut()` (R536). -/
def Noise.out (n : Noise) : BitVec 4 :=
  if n.length = 0 ∨ n.lfsr.getLsbD 0 then 0 else envelopeVolume n.constVol n.vol n.envDecay

/-- `LengthClock(noise)` (R526). -/
def Noise.lengthClock (n : Noise) : Noise := { n with length := Machine.lengthClock n.halt n.length }

/-! ### Delta-modulation channel -/

/-- The level after an output clock, from bit 0 of the shift register (R541). -/
def dmcLevel (up : Bool) (level : BitVec 7) : BitVec 7 :=
  if up then (if level.toNat ≤ 125 then level + 2 else level) else (if 2 ≤ level.toNat then level - 2 else level)

/-- The output clock of `DmcTimerTick()`, its timer having run out (R541). -/
def Dmc.outputClock (d : Dmc) : Dmc :=
  let level := if d.silence then d.level else dmcLevel (d.shift.getLsbD 0) d.level
  if d.bitsLeft - 1 = 0 then
    { d with
      timer := dmcRate d.rateIdx - 1
      level := level
      bitsLeft := 8
      shift := if d.bufFull then d.buf else d.shift >>> 1
      bufFull := false
      silence := !d.bufFull }
  else
    { d with timer := dmcRate d.rateIdx - 1, level := level, bitsLeft := d.bitsLeft - 1, shift := d.shift >>> 1 }

/-- `DmcTimerTick()` (R541). -/
def Dmc.timerTick (d : Dmc) : Dmc := if d.timer ≠ 0 then { d with timer := d.timer - 1 } else d.outputClock

/-- `DmcRestart()` (R542). -/
def Dmc.restart (d : Dmc) : Dmc :=
  { d with
    curAddr := (0xC000 : Word) + 64 * d.addrReg.setWidth 16
    bytesLeft := 16 * d.lenReg.setWidth 12 + 1 }

/-- `DmcFetch(a)` (R109): the mapper's byte, the open bus where it claims none; no cycle, `open_bus` untouched. -/
def dmcFetch (cart : Cartridge) (openBus : Byte) (a : Word) : Byte := (cpuRead cart a).getD openBus

/-- `DmcReaderStep()` (R542) with the byte that its fetch returns. -/
def Dmc.readerStep (d : Dmc) (fetched : Byte) : Dmc :=
  if d.bufFull = false ∧ d.bytesLeft ≠ 0 then
    let d :=
      { d with
        buf := fetched
        bufFull := true
        curAddr := if d.curAddr = 0xFFFF then 0x8000 else d.curAddr + 1
        bytesLeft := d.bytesLeft - 1 }
    if d.bytesLeft = 0 then
      if d.loop then d.restart else if d.irqEn then { d with irqFlag := true } else d
    else d
  else d

/-! ### Frame sequencer -/

/-- `Quarter()` (R545). -/
def Apu.quarter (u : Apu) : Apu :=
  { u with
    pulse1 := u.pulse1.envelopeClock
    pulse2 := u.pulse2.envelopeClock
    noise := u.noise.envelopeClock
    triangle := u.triangle.linearClock }

/-- `Half()` (R545). -/
def Apu.half (u : Apu) : Apu :=
  { u with
    pulse1 := u.pulse1.lengthClock.sweepClock true
    pulse2 := u.pulse2.lengthClock.sweepClock false
    triangle := u.triangle.lengthClock
    noise := u.noise.lengthClock }

/-- `if irq_inhibit = 0: frame_irq <- 1` (R545). -/
def Apu.raiseFrameIrq (u : Apu) : Apu :=
  { u with seq := { u.seq with frameIrq := u.seq.frameIrq || !u.seq.irqInhibit } }

/-- `fs_cycle <- n`. -/
def Apu.setFsCycle (u : Apu) (n : Nat) : Apu := { u with seq := { u.seq with cycle := n } }

/-- The 4-step schedule at its `fs_cycle` (R545, `FRAME_SEQ_4`). -/
def Apu.schedule4 (u : Apu) : Apu :=
  if u.seq.cycle = 7457 then u.quarter
  else if u.seq.cycle = 14913 then u.quarter.half
  else if u.seq.cycle = 22371 then u.quarter
  else if u.seq.cycle = 29828 then u.raiseFrameIrq
  else if u.seq.cycle = 29829 then u.quarter.half.raiseFrameIrq
  else if u.seq.cycle = 29830 then u.raiseFrameIrq.setFsCycle 0
  else u

/-- The 5-step schedule at its `fs_cycle` (R545, `FRAME_SEQ_5`). -/
def Apu.schedule5 (u : Apu) : Apu :=
  if u.seq.cycle = 7457 then u.quarter
  else if u.seq.cycle = 14913 then u.quarter.half
  else if u.seq.cycle = 22371 then u.quarter
  else if u.seq.cycle = 37281 then u.quarter.half
  else if u.seq.cycle = 37282 then u.setFsCycle 0
  else u

/-- The delayed restart that a write to 0x4017 asks for (R545, R546). -/
def Apu.delayedRestart (u : Apu) : Apu :=
  if u.seq.resetDelay = 0 then u
  else
    let u := { u with seq := { u.seq with resetDelay := u.seq.resetDelay - 1 } }
    if u.seq.resetDelay = 0 then
      let u := u.setFsCycle 0
      if u.seq.mode then u.quarter.half else u
    else u

/-- `FrameSequencerTick()` (R545). -/
def Apu.sequencerTick (u : Apu) : Apu :=
  let u := u.setFsCycle (u.seq.cycle + 1)
  let u := if u.seq.mode then u.schedule5 else u.schedule4
  u.delayedRestart

/-! ### The tick -/

/-- The five channel levels (R548). -/
def Apu.channelLevels (u : Apu) : Levels :=
  { p1 := u.pulse1.out true, p2 := u.pulse2.out false, t := u.triangle.out, n := u.noise.out, d := u.dmc.level }

/-- The two pulse timers, every second CPU cycle (R520, R528). -/
def Apu.pulseTimers (u : Apu) (cycles : Nat) : Apu :=
  if cycles % 2 = 0 then { u with pulse1 := u.pulse1.timerTick, pulse2 := u.pulse2.timerTick } else u

/-- `ApuTick()` (R520): `tableLen` is `NOISE_TABLE_LEN`, `cycles` already counts the cycle of the tick, `fetch` is the bus
the delta-modulation channel reads its sample from. -/
def Apu.tick (u : Apu) (tableLen cycles : Nat) (fetch : Word → Byte) : Apu :=
  let u := u.sequencerTick
  let u := { u with triangle := u.triangle.timerTick }
  let u := u.pulseTimers cycles
  let u := { u with noise := u.noise.timerTick tableLen }
  let d := u.dmc.timerTick
  let u := { u with dmc := d.readerStep (fetch d.curAddr) }
  { u with levels := u.channelLevels }

/-! ### Registers -/

/-- A channel's length after its enable bit is written (R550). -/
def enabledLength (bit : Bool) (length : Byte) : Byte := if bit then length else 0

/-- `ApuEnableWrite(val)` (R550). -/
def Apu.enableWrite (u : Apu) (val : Byte) : Apu :=
  let d := u.dmc
  let d :=
    if val.getLsbD 4 = false then { d with bytesLeft := 0 }
    else if d.bytesLeft = 0 then d.restart
    else d
  { u with
    pulse1 := { u.pulse1 with enabled := val.getLsbD 0, length := enabledLength (val.getLsbD 0) u.pulse1.length }
    pulse2 := { u.pulse2 with enabled := val.getLsbD 1, length := enabledLength (val.getLsbD 1) u.pulse2.length }
    triangle := { u.triangle with enabled := val.getLsbD 2, length := enabledLength (val.getLsbD 2) u.triangle.length }
    noise := { u.noise with enabled := val.getLsbD 3, length := enabledLength (val.getLsbD 3) u.noise.length }
    dmc := { d with enabled := val.getLsbD 4, irqFlag := false } }

/-- The byte of `ApuStatusRead()` (R551, R64). -/
def Apu.statusByte (u : Apu) (openBus : Byte) : Byte :=
  BitVec.ofBool u.dmc.irqFlag ++ BitVec.ofBool u.seq.frameIrq ++ BitVec.ofBool (openBus.getLsbD 5) ++
    BitVec.ofBool (u.dmc.bytesLeft != 0) ++ BitVec.ofBool (u.noise.length != 0) ++
    BitVec.ofBool (u.triangle.length != 0) ++ BitVec.ofBool (u.pulse2.length != 0) ++
    BitVec.ofBool (u.pulse1.length != 0)

/-- What `ApuStatusRead()` leaves: `frame_irq` clear, the other request unchanged (R551). -/
def Apu.afterStatusRead (u : Apu) : Apu := { u with seq := { u.seq with frameIrq := false } }

/-- The length loaded by a channel's fourth register: only while the channel is enabled (R526, R552). -/
def loadedLength (enabled : Bool) (length val : Byte) : Byte :=
  if enabled then lengthEntry (val.extractLsb' 3 5) else length

/-- `period[7:0] <- val`. -/
def periodLow (period : BitVec 11) (val : Byte) : BitVec 11 := period.extractLsb' 8 3 ++ val

/-- `period[10:8] <- val[2:0]`. -/
def periodHigh (period : BitVec 11) (val : Byte) : BitVec 11 := val.extractLsb' 0 3 ++ period.extractLsb' 0 8

/-- A write of a pulse channel's register `r` (0..3) (R59, R552). -/
def Pulse.write (p : Pulse) (r : Nat) (val : Byte) : Pulse :=
  match r with
  | 0 =>
    { p with
      duty := val.extractLsb' 6 2, halt := val.getLsbD 5, constVol := val.getLsbD 4, vol := val.extractLsb' 0 4 }
  | 1 =>
    { p with
      swEn := val.getLsbD 7, swPeriod := val.extractLsb' 4 3, swNeg := val.getLsbD 3
      swShift := val.extractLsb' 0 3, swReload := true }
  | 2 => { p with period := periodLow p.period val }
  | _ =>
    { p with
      period := periodHigh p.period val, length := loadedLength p.enabled p.length val, envStart := true, seq := 0 }

/-- A write of a triangle register `r` (0..3); register 1 does not exist (R60, R552). -/
def Triangle.write (t : Triangle) (r : Nat) (val : Byte) : Triangle :=
  match r with
  | 0 => { t with ctrl := val.getLsbD 7, linReloadVal := val.extractLsb' 0 7 }
  | 1 => t
  | 2 => { t with period := periodLow t.period val }
  | _ => { t with period := periodHigh t.period val, length := loadedLength t.enabled t.length val, linReload := true }

/-- A write of a noise register `r` (0..3); register 1 does not exist (R61, R552). -/
def Noise.write (n : Noise) (r : Nat) (val : Byte) : Noise :=
  match r with
  | 0 => { n with halt := val.getLsbD 5, constVol := val.getLsbD 4, vol := val.extractLsb' 0 4 }
  | 1 => n
  | 2 => { n with mode := val.getLsbD 7, periodIdx := val.extractLsb' 0 4 }
  | _ => { n with length := loadedLength n.enabled n.length val, envStart := true }

/-- A write of a delta-modulation register `r` (0..3) (R62, R552). -/
def Dmc.write (d : Dmc) (r : Nat) (val : Byte) : Dmc :=
  match r with
  | 0 =>
    { d with
      irqEn := val.getLsbD 7, loop := val.getLsbD 6, rateIdx := val.extractLsb' 0 4
      irqFlag := d.irqFlag && val.getLsbD 7 }
  | 1 => { d with level := val.extractLsb' 0 7 }
  | 2 => { d with addrReg := val }
  | _ => { d with lenReg := val }

/-- The write of 0x4017 (R546): `cycle` is the index of the write's own bus cycle, `cpu_cycles + 1`. -/
def FrameSeq.write (q : FrameSeq) (val : Byte) (cycle : Nat) : FrameSeq :=
  { q with
    mode := val.getLsbD 7
    irqInhibit := val.getLsbD 6
    frameIrq := q.frameIrq && !val.getLsbD 6
    resetDelay := if cycle % 2 = 0 then 4 else 5 }

/-- The write of an audio channel register, offset 0..0x13 from 0x4000 (R552). -/
def Apu.channelWrite (u : Apu) (offset : Nat) (val : Byte) : Apu :=
  match offset / 4 with
  | 0 => { u with pulse1 := u.pulse1.write (offset % 4) val }
  | 1 => { u with pulse2 := u.pulse2.write (offset % 4) val }
  | 2 => { u with triangle := u.triangle.write (offset % 4) val }
  | 3 => { u with noise := u.noise.write (offset % 4) val }
  | _ => { u with dmc := u.dmc.write (offset % 4) val }

end Sys2Proof.Machine
end

