-- ==== Sys2Proof/Machine/PictureUnit.lean ====
section
/-! DEFINITION. The Picture Unit (61_picture_unit.md) and its address space (20_memory.md R110 to R113): one dot, and the
register window. Nothing here has a hidden cell (R476). -/

namespace Sys2Proof.Machine

/-! ### The PPU address space -/

/-- The page of name-table memory that table `tbl` (0..3) shows under a mirroring mode (R111). -/
def ntPage (m : Mirroring) (tbl : Nat) : Nat :=
  match m with
  | .horizontal => tbl / 2
  | .vertical => tbl % 2
  | .oneScreenLower => 0
  | .oneScreenUpper => 1
  | .fourScreen => tbl

/-- `NtCell(off)` read (R111): pages 0 and 1 are `vram`, pages 2 and 3 the mapper's extra tables. -/
def ntRead (s : State) (off : Nat) : Byte :=
  let page := ntPage (mirroring s.cart) (off / 0x400)
  if page < 2 then Cells.read s.ppu.vram (page * 0x400 + off % 0x400)
  else Cells.read s.cart.ntExtra ((page - 2) * 0x400 + off % 0x400)

/-- `NtCell(off) <- v` (R111). -/
def ntWrite (s : State) (off : Nat) (v : Byte) : State :=
  let page := ntPage (mirroring s.cart) (off / 0x400)
  if page < 2 then
    { s with ppu := { s.ppu with vram := Cells.write s.ppu.vram (page * 0x400 + off % 0x400) v } }
  else
    { s with cart := { s.cart with ntExtra := Cells.write s.cart.ntExtra ((page - 2) * 0x400 + off % 0x400) v } }

/-- `PalIndex(i)` for `i` in 0..31 (R112): 0x10, 0x14, 0x18, 0x1C alias 0x00, 0x04, 0x08, 0x0C. -/
def palIndex (i : Nat) : Nat :=
  if i / 16 % 2 = 1 ∧ i % 4 = 0 then i % 16 else i

/-- `PpuRead(a)` (R110). -/
def ppuRead (s : State) (a : BitVec 14) : Byte :=
  let n := a.toNat
  if n ≤ 0x1FFF then
    match ppuChrRead s.cart a with
    | some b => b
    | none => a.setWidth 8
  else if n ≤ 0x3EFF then ntRead s (n % 0x1000)
  else (s.ppu.ioLatch &&& 0xC0) ||| (Cells.read s.ppu.palette (palIndex (n % 0x20))).setWidth 8

/-- `PpuWrite(a, v)` (R110). -/
def ppuWrite (s : State) (a : BitVec 14) (v : Byte) : State :=
  let n := a.toNat
  if n ≤ 0x1FFF then { s with cart := ppuChrWrite s.cart a v }
  else if n ≤ 0x3EFF then ntWrite s (n % 0x1000) v
  else
    { s with ppu := { s.ppu with palette := Cells.write s.ppu.palette (palIndex (n % 0x20)) (v.setWidth 6) } }

/-! ### Fields of `v` and `t` (10_state.md R47) -/

/-- Bits 4:0, coarse X. -/
def coarseX (v : BitVec 15) : BitVec 5 := v.extractLsb' 0 5

/-- Bits 9:5, coarse Y. -/
def coarseY (v : BitVec 15) : BitVec 5 := v.extractLsb' 5 5

/-- Bit 10, the horizontal name-table select. -/
def ntX (v : BitVec 15) : BitVec 1 := v.extractLsb' 10 1

/-- Bit 11, the vertical name-table select. -/
def ntY (v : BitVec 15) : BitVec 1 := v.extractLsb' 11 1

/-- Bits 14:12, fine Y. -/
def fineY (v : BitVec 15) : BitVec 3 := v.extractLsb' 12 3

/-- The 15 bits from their fields. -/
def scrollOf (fy : BitVec 3) (ny nx : BitVec 1) (cy cx : BitVec 5) : BitVec 15 := fy ++ ny ++ nx ++ cy ++ cx

/-! ### Scroll-register updates (R457) -/

/-- `IncX()`. -/
def incX (v : BitVec 15) : BitVec 15 :=
  if coarseX v = 31 then scrollOf (fineY v) (ntY v) (~~~ ntX v) (coarseY v) 0
  else scrollOf (fineY v) (ntY v) (ntX v) (coarseY v) (coarseX v + 1)

/-- `IncY()`. -/
def incY (v : BitVec 15) : BitVec 15 :=
  if fineY v ≠ 7 then scrollOf (fineY v + 1) (ntY v) (ntX v) (coarseY v) (coarseX v)
  else if coarseY v = 29 then scrollOf 0 (~~~ ntY v) (ntX v) 0 (coarseX v)
  else if coarseY v = 31 then scrollOf 0 (ntY v) (ntX v) 0 (coarseX v)
  else scrollOf 0 (ntY v) (ntX v) (coarseY v + 1) (coarseX v)

/-- `CopyX()`: `v[4:0] <- t[4:0]; v[10] <- t[10]`. -/
def copyX (v t : BitVec 15) : BitVec 15 := scrollOf (fineY v) (ntY v) (ntX t) (coarseY v) (coarseX t)

/-- `CopyY()`: `v[9:5] <- t[9:5]; v[11] <- t[11]; v[14:12] <- t[14:12]`. -/
def copyY (v t : BitVec 15) : BitVec 15 := scrollOf (fineY t) (ntY t) (ntX v) (coarseY t) (coarseX v)

/-! ### Background pipeline -/

/-- "Rendering enabled": `mask[3] OR mask[4]` (R51, R452). -/
def rendering (p : Ppu) : Bool := p.mask.getLsbD 3 || p.mask.getLsbD 4

/-- The name-table address of the current tile: `0x2000 | (v & 0x0FFF)` (R456). -/
def tileAddr (v : BitVec 15) : BitVec 14 := (0x2000 : BitVec 14) ||| (v.setWidth 14 &&& 0x0FFF)

/-- The attribute address of the current tile (R456). -/
def attrAddr (v : BitVec 15) : BitVec 14 :=
  (0x23C0 : BitVec 14) ||| (v.setWidth 14 &&& 0x0C00) ||| ((v >>> 4).setWidth 14 &&& 0x38) |||
    ((v >>> 2).setWidth 14 &&& 0x07)

/-- The two attribute bits of the current tile's quadrant: `(b >> (((v >> 4) & 4) | (v & 2))) & 3` (R456). -/
def attrBits (v : BitVec 15) (b : Byte) : BitVec 2 :=
  (b >>> (((v >>> 4) &&& 4) ||| (v &&& 2)).toNat).setWidth 2

/-- The address of the current row of the fetched tile: `bgbase + 16 * nt + v[14:12]` (R456). -/
def patternAddr (p : Ppu) : BitVec 14 :=
  (if p.ctrl.getLsbD 4 then (0x1000 : BitVec 14) else 0) + 16 * p.nt.setWidth 14 + (fineY p.v).setWidth 14

/-- `BackgroundFetchStep(d)` (R456). -/
def backgroundFetchStep (d : Nat) (s : State) : State :=
  let p := s.ppu
  match (d - 1) % 8 with
  | 0 => { s with ppu := { p with nt := ppuRead s (tileAddr p.v) } }
  | 2 => { s with ppu := { p with attr := attrBits p.v (ppuRead s (attrAddr p.v)) } }
  | 4 => { s with ppu := { p with ptLo := ppuRead s (patternAddr p) } }
  | 6 => { s with ppu := { p with ptHi := ppuRead s (patternAddr p + 8) } }
  | 7 => { s with ppu := { p with v := incX p.v } }
  | _ => s

/-- `ShiftBackground()` (R458). -/
def shiftBackground (p : Ppu) : Ppu :=
  { p with bgLo := p.bgLo <<< 1, bgHi := p.bgHi <<< 1, atLo := p.atLo <<< 1, atHi := p.atHi <<< 1 }

/-- `x[7:0] <- b`, bits 15:8 kept. -/
def setLow (x : BitVec 16) (b : Byte) : BitVec 16 := x.extractLsb' 8 8 ++ b

/-- `ReloadShifters()` (R458). -/
def reloadShifters (p : Ppu) : Ppu :=
  { p with
    bgLo := setLow p.bgLo p.ptLo
    bgHi := setLow p.bgHi p.ptHi
    atLo := setLow p.atLo (if p.attr.getLsbD 0 then 0xFF else 0x00)
    atHi := setLow p.atHi (if p.attr.getLsbD 1 then 0xFF else 0x00) }

/-! ### Object memory -/

/-- `oam[k]` as a read gives it (R54, R113): bits 4:2 of an attribute byte do not exist and read 0, whatever byte was
stored. Every reader of object memory reads it so (log 13). -/
def oamRead (oam : Memory) (k : Nat) : Byte :=
  if k % 4 = 2 then Cells.read oam k &&& 0xE3 else Cells.read oam k

/-! ### Sprites -/

/-- The object height: 16 when `ctrl[5]`, else 8 (R471). -/
def spriteHeight (p : Ppu) : Nat := if p.ctrl.getLsbD 5 then 16 else 8

/-- "in range" for scanline `line`: `0 <= line - y < h` (R471). -/
def inRange (line h : Nat) (y : Byte) : Bool := decide (y.toNat ≤ line) && decide (line - y.toNat < h)

/-- The search of R471 for up to eight objects: from object `n` with `count` found so far, `fuel` objects left.
Returns the secondary memory, the count, whether object 0 is its first, and the object index reached. -/
def findSprites (oam : Memory) (line h : Nat) : Nat → Nat → Memory → Nat → Bool → Memory × Nat × Bool × Nat
  | 0, n, oam2, count, has0 => (oam2, count, has0, n)
  | fuel + 1, n, oam2, count, has0 =>
    if count < 8 then
      if inRange line h (oamRead oam (4 * n)) then
        findSprites oam line h fuel (n + 1)
          (Cells.writeList oam2 (4 * count) ((List.range 4).map fun k => oamRead oam (4 * n + k)))
          (count + 1) (has0 || n == 0)
      else findSprites oam line h fuel (n + 1) oam2 count has0
    else (oam2, count, has0, n)

/-- The overflow search of R471 "with its bug": a miss advances the object index and the byte index. -/
def overflowSearch (oam : Memory) (line h : Nat) : Nat → Nat → Nat → Bool
  | 0, _, _ => false
  | fuel + 1, n, m =>
    if n < 64 then
      inRange line h (oamRead oam (4 * n + m)) || overflowSearch oam line h fuel (n + 1) ((m + 1) % 4)
    else false

/-- `SpriteEvaluate(L)` (R471): selects the objects for scanline L + 1. -/
def spriteEvaluate (line : Nat) (p : Ppu) : Ppu :=
  let h := spriteHeight p
  let r := findSprites p.oam line h 64 0 oam2Cleared 0 false
  { p with
    oam2 := r.1
    oam2Count := r.2.1
    oam2Has0 := r.2.2.1
    sprOverflow := p.sprOverflow || overflowSearch p.oam line h 64 r.2.2.2 0 }

/-- The 8 bits of a byte reversed (R472). -/
def reverseBits (b : Byte) : Byte := b.reverse

/-- The row of an object that shows on scanline `line + 1`, as an integer (R8, R472): the object height may have changed
since the evaluation, or the evaluation may be that of an earlier line, so it need not lie in 0..h-1 (log 14). -/
def spriteRow (p : Ppu) (line : Nat) (y attr : Byte) : Int :=
  let row := (line : Int) - y.toNat
  if attr.getLsbD 7 then (spriteHeight p : Int) - 1 - row else row

/-- The pattern address of row `row` of tile `tile`, reduced to 14 bits (R472, R110). -/
def spriteRowAddr (p : Ppu) (tile : Byte) (row : Int) : BitVec 14 :=
  if spriteHeight p = 8 then
    (if p.ctrl.getLsbD 3 then (0x1000 : BitVec 14) else 0) + 16 * tile.setWidth 14 + BitVec.ofInt 14 row
  else
    (if tile.getLsbD 0 then (0x1000 : BitVec 14) else 0) + 16 * (tile &&& 0xFE).setWidth 14 +
      BitVec.ofInt 14 (if 8 ≤ row then row + 8 else row)

/-- The sprite unit that `SpriteFetch(L)` loads from object `i` of the secondary memory (R472). -/
def fetchSprite (s : State) (line i : Nat) : SpriteUnit :=
  let p := s.ppu
  let attr := Cells.read p.oam2 (4 * i + 2)
  let row := spriteRow p line (Cells.read p.oam2 (4 * i)) attr
  let addr := spriteRowAddr p (Cells.read p.oam2 (4 * i + 1)) row
  let lo := ppuRead s addr
  let hi := ppuRead s (addr + 8)
  { lo := if attr.getLsbD 6 then reverseBits lo else lo
    hi := if attr.getLsbD 6 then reverseBits hi else hi
    attr := attr
    x := Cells.read p.oam2 (4 * i + 3)
    isZero := i == 0 && p.oam2Has0 }

/-- `SpriteFetch(L)` (R472): loads the eight sprite units for the next scanline. The dummy fetches of tile 0xFF read
the mapper, which has no read side effect (R582), and leave no trace. -/
def spriteFetch (line : Nat) (s : State) : State :=
  let unit (i : Nat) : SpriteUnit :=
    if line ≤ 239 ∧ i < s.ppu.oam2Count then fetchSprite s line i else .empty
  { s with ppu := { s.ppu with sprites := (List.range 8).map unit } }

/-! ### Pixel output -/

/-- The two-bit number of a high and a low bit. -/
def twoBits (hi lo : Bool) : BitVec 2 := BitVec.ofBool hi ++ BitVec.ofBool lo

/-- The pixel of a sprite unit at column `x`: 0 outside its eight columns (R459). -/
def SpriteUnit.pixel (u : SpriteUnit) (x : Nat) : BitVec 2 :=
  if u.x.toNat ≤ x ∧ x - u.x.toNat ≤ 7 then
    twoBits (u.hi.getLsbD (7 - (x - u.x.toNat))) (u.lo.getLsbD (7 - (x - u.x.toNat)))
  else 0

/-- The background pixel and its palette at column `x`: (0, 0) where hidden (R459). -/
def backgroundPixel (p : Ppu) (x : Nat) : BitVec 2 × BitVec 2 :=
  if p.mask.getLsbD 3 ∧ (x ≥ 8 ∨ p.mask.getLsbD 1) then
    let k := 15 - p.fineX.toNat
    (twoBits (p.bgHi.getLsbD k) (p.bgLo.getLsbD k), twoBits (p.atHi.getLsbD k) (p.atLo.getLsbD k))
  else (0, 0)

/-- The first sprite unit that yields a non-zero pixel at column `x`, where sprites are shown (R459). -/
def spriteAt (p : Ppu) (x : Nat) : Option SpriteUnit :=
  if p.mask.getLsbD 4 ∧ (x ≥ 8 ∨ p.mask.getLsbD 2) then p.sprites.find? fun u => u.pixel x != 0 else none

/-- The palette address that the two layers select (R459): the background pixel and palette, the winning unit's pixel,
palette and priority. -/
def layerAddr (bgPx bgPal spPx spPal : BitVec 2) (behind : Bool) : Nat :=
  let bg := ((bgPal ++ bgPx) : BitVec 4).toNat
  let sp := 16 + ((spPal ++ spPx) : BitVec 4).toNat
  if bgPx = 0 ∧ spPx = 0 then 0
  else if bgPx = 0 then sp
  else if spPx = 0 then bg
  else if behind then bg
  else sp

/-- `OutputPixel(x, y)` (R459, R460). -/
def outputPixel (x y : Nat) (p : Ppu) : Ppu :=
  let bg := backgroundPixel p x
  let unit := (spriteAt p x).getD .empty
  let spPx := unit.pixel x
  let spPx := if (spriteAt p x).isSome then spPx else 0
  let addr := layerAddr bg.1 bg.2 spPx (unit.attr.extractLsb' 0 2) (unit.attr.getLsbD 5)
  let colour := Cells.read p.palette (palIndex addr)
  let colour := if p.mask.getLsbD 0 then colour &&& 0x30 else colour
  { p with
    spr0Hit := p.spr0Hit || (bg.1 != 0 && spPx != 0 && unit.isZero && x != 255)
    pixels := Cells.write p.pixels (256 * y + x) colour }

/-! ### One dot -/

/-- Part A of `PpuDot()` (R452, R454, R455): status flags and frame hand-off. -/
def dotFlags (p : Ppu) : Ppu :=
  if p.scanline = 241 ∧ p.dot = 1 then { p with vblank := true }
  else if p.scanline = 261 ∧ p.dot = 1 then
    { p with vblank := false, spr0Hit := false, sprOverflow := false, frameOut := p.pixels, frameReady := true }
  else p

/-- A change of the Picture Unit alone. -/
def onPpu (f : Ppu → Ppu) (s : State) : State := { s with ppu := f s.ppu }

/-- A line of the form "if b: f". -/
def whenDo (b : Bool) (f : State → State) (s : State) : State := if b then f s else s

/-- The two unused fetches of dots 337 and 339 (R452). -/
def unusedFetch (s : State) : State := { s with ppu := { s.ppu with nt := ppuRead s (tileAddr s.ppu.v) } }

/-- Part B of `PpuDot()` (R452) at scanline `line` and dot `d`: the fetch pipeline, in the order of the rule's lines. -/
def dotFetch (line d : Nat) (s : State) : State :=
  let s := whenDo (decide (2 ≤ d ∧ d ≤ 257 ∨ 322 ≤ d ∧ d ≤ 337)) (onPpu shiftBackground) s
  let s := whenDo (decide ((d - 1) % 8 = 0 ∧ (9 ≤ d ∧ d ≤ 257 ∨ d = 329 ∨ d = 337))) (onPpu reloadShifters) s
  let s := whenDo (decide (1 ≤ d ∧ d ≤ 256 ∨ 321 ≤ d ∧ d ≤ 336)) (backgroundFetchStep d) s
  let s := whenDo (decide (d = 256)) (onPpu fun p => { p with v := incY p.v }) s
  let s := whenDo (decide (d = 257)) (onPpu fun p => { p with v := copyX p.v p.t }) s
  let s := whenDo (decide (d = 337 ∨ d = 339)) unusedFetch s
  let s := whenDo (decide (line = 261 ∧ 280 ≤ d ∧ d ≤ 304)) (onPpu fun p => { p with v := copyY p.v p.t }) s
  let s := whenDo (decide (257 ≤ d ∧ d ≤ 320)) (onPpu fun p => { p with oamAddr := 0x00 }) s
  let s := whenDo (decide (d = 256 ∧ line ≤ 239)) (onPpu (spriteEvaluate line)) s
  let s := whenDo (decide (d = 256 ∧ line = 261)) (onPpu fun p => { p with oam2Count := 0, oam2Has0 := false }) s
  whenDo (decide (d = 320)) (spriteFetch line) s

/-- The last dot of a line: 339 on the pre-render line of an odd frame with rendering enabled, else 340 (R453). -/
def lastDot (p : Ppu) (re : Bool) : Nat := if p.scanline = 261 ∧ re ∧ p.oddFrame then 339 else 340

/-- The counters at the start of the next line, or of the next frame (R453). -/
def nextLine (p : Ppu) : Ppu :=
  if p.scanline = 261 then { p with dot := 0, scanline := 0, frame := p.frame + 1, oddFrame := !p.oddFrame }
  else { p with dot := 0, scanline := p.scanline + 1 }

/-- `AdvanceCounters(re)` (R453), with the mapper's scanline hook (R474). -/
def advanceCounters (re : Bool) (s : State) : State :=
  if lastDot s.ppu re ≤ s.ppu.dot then
    { s with ppu := nextLine s.ppu, cart := onScanline s.cart s.ppu.scanline re }
  else { s with ppu := { s.ppu with dot := s.ppu.dot + 1 } }

/-- Parts A, B and C of `PpuDot()` (R452) at scanline `line` and dot `d`: flags, fetch pipeline, pixel. -/
def dotWork (line d : Nat) (re : Bool) (s : State) : State :=
  let s := onPpu dotFlags s
  let s := whenDo (re && decide (line ≤ 239 ∨ line = 261)) (dotFetch line d) s
  whenDo (decide (line ≤ 239 ∧ 1 ≤ d ∧ d ≤ 256)) (onPpu (outputPixel (d - 1) line)) s

/-- `PpuDot()` (R452): its parts A to D, on the (scanline, dot) and the rendering state at its beginning. -/
def ppuDot (s : State) : State :=
  advanceCounters (rendering s.ppu) (dotWork s.ppu.scanline s.ppu.dot (rendering s.ppu) s)

/-! ### Register window (R461 to R469) -/

/-- The eight registers of the window (R50 to R57). -/
inductive PpuReg where
  | control
  | mask
  | status
  | oamAddress
  | oamData
  | scroll
  | address
  | data
  deriving DecidableEq, Repr

/-- The register at a CPU address of the window: `a & 7` (R87). -/
def ppuRegOf (a : Word) : PpuReg :=
  match a.toNat % 8 with
  | 0 => .control
  | 1 => .mask
  | 2 => .status
  | 3 => .oamAddress
  | 4 => .oamData
  | 5 => .scroll
  | 6 => .address
  | _ => .data

/-- `nmi_line = vblank AND ctrl[7]` (R470). -/
def nmiLine (p : Ppu) : Bool := p.vblank && p.ctrl.getLsbD 7

/-- The data port's address step: 32 when `ctrl[2]`, else 1 (R466). -/
def dataStep (p : Ppu) : BitVec 15 := if p.ctrl.getLsbD 2 then 32 else 1

/-- Control write (R469): `ctrl <- val; t[11:10] <- val[1:0]`. -/
def writeControl (p : Ppu) (val : Byte) : Ppu :=
  { p with
    ctrl := val
    t := scrollOf (fineY p.t) (val.extractLsb' 1 1) (val.extractLsb' 0 1) (coarseY p.t) (coarseX p.t) }

/-- Scroll write (R464). -/
def writeScroll (p : Ppu) (val : Byte) : Ppu :=
  if p.w then
    { p with
      t := scrollOf (val.extractLsb' 0 3) (ntY p.t) (ntX p.t) (val.extractLsb' 3 5) (coarseX p.t)
      w := false }
  else
    { p with
      t := scrollOf (fineY p.t) (ntY p.t) (ntX p.t) (coarseY p.t) (val.extractLsb' 3 5)
      fineX := val.extractLsb' 0 3
      w := true }

/-- Address write (R465). -/
def writeAddress (p : Ppu) (val : Byte) : Ppu :=
  if p.w then
    let t : BitVec 15 := p.t.extractLsb' 8 7 ++ val
    { p with t := t, v := t, w := false }
  else
    { p with t := (0 : BitVec 1) ++ val.extractLsb' 0 6 ++ p.t.extractLsb' 0 8, w := true }

/-- Object memory data write (R54, R461): the byte is stored whole. -/
def writeOamData (p : Ppu) (val : Byte) : Ppu :=
  { p with oam := Cells.write p.oam p.oamAddr.toNat val, oamAddr := p.oamAddr + 1 }

/-- Data write (R467). -/
def writeData (s : State) (val : Byte) : State :=
  let v := s.ppu.v
  let s := ppuWrite s (v.setWidth 14) val
  { s with ppu := { s.ppu with v := v + dataStep s.ppu } }

/-- What a write to each register does beside the I/O latch (R461). -/
def ppuRegStore (s : State) (r : PpuReg) (val : Byte) : State :=
  match r with
  | .control => { s with ppu := writeControl s.ppu val }
  | .mask => { s with ppu := { s.ppu with mask := val } }
  | .status => s
  | .oamAddress => { s with ppu := { s.ppu with oamAddr := val } }
  | .oamData => { s with ppu := writeOamData s.ppu val }
  | .scroll => { s with ppu := writeScroll s.ppu val }
  | .address => { s with ppu := writeAddress s.ppu val }
  | .data => writeData s val

/-- `PpuRegWrite(r, val)` (R461): the I/O latch first, for every register. -/
def ppuRegWrite (s : State) (r : PpuReg) (val : Byte) : State :=
  ppuRegStore { s with ppu := { s.ppu with ioLatch := val } } r val

/-- `{vblank, spr0_hit, spr_overflow, io_latch[4:0]}` (R463). -/
def statusByte (p : Ppu) : Byte :=
  BitVec.ofBool p.vblank ++ BitVec.ofBool p.spr0Hit ++ BitVec.ofBool p.sprOverflow ++ p.ioLatch.extractLsb' 0 5

/-- Object memory data read (R54, R462): bits 4:2 of an attribute byte read 0. -/
def oamDataByte (p : Ppu) : Byte := oamRead p.oam p.oamAddr.toNat

/-- The byte a data-port read returns (R466). -/
def dataByte (s : State) : Byte :=
  if (s.ppu.v.setWidth 14).toNat ≤ 0x3EFF then s.ppu.readBuf else ppuRead s (s.ppu.v.setWidth 14)

/-- The byte a data-port read leaves in the buffer (R466): below the palette the byte addressed, in the palette range
the name-table byte under it. -/
def dataRefill (s : State) : Byte :=
  let a := s.ppu.v.setWidth 14
  if a.toNat ≤ 0x3EFF then ppuRead s a else ntRead s (a.toNat % 0x1000)

/-- `PpuRegRead(r)` (R462, R463, R466): the byte, and the state with its side effects; the I/O latch takes the byte. -/
def ppuRegRead (s : State) (r : PpuReg) : Byte × State :=
  let p := s.ppu
  match r with
  | .status =>
    (statusByte p, { s with ppu := { p with vblank := false, w := false, ioLatch := statusByte p } })
  | .oamData => (oamDataByte p, { s with ppu := { p with ioLatch := oamDataByte p } })
  | .data =>
    (dataByte s,
      { s with ppu := { p with readBuf := dataRefill s, v := p.v + dataStep p, ioLatch := dataByte s } })
  | _ => (p.ioLatch, s)

end Sys2Proof.Machine
end

