-- ==== Sys2Proof/Machine/Bus.lean ====
section
/-! DEFINITION. The bus (20_memory.md R84 to R94, R104 to R106): the resolution of one access, in the source's fixed order
(RAM, picture-unit window, I/O window, mapper), the controllers, and the cycle that follows every access (R622). -/

namespace Sys2Proof.Machine

/-! ### Controllers -/

/-- One controller port while the strobe line has a value: a high strobe keeps the shift register at the buttons
(R104). -/
def Pad.strobed (p : Pad) (strobe : Bool) : Pad := if strobe then { p with shift := p.buttons } else p

/-- `ControllerStrobeWrite(v)` (R104). "While strobe = 1" the shift registers follow the buttons, so a write that ends a
strobe leaves them at the buttons of that moment, as does one that sets or keeps it (log 17). -/
def strobeWrite (s : State) (v : Byte) : State :=
  let follows := s.strobe || v.getLsbD 0
  { s with strobe := v.getLsbD 0, pad1 := s.pad1.strobed follows, pad2 := s.pad2.strobed follows }

/-- One port after a read: reloaded under a high strobe, else shifted right with a one coming in (R105). -/
def Pad.afterRead (p : Pad) (strobe : Bool) : Pad :=
  if strobe then p.strobed strobe else { p with shift := (p.shift >>> 1) ||| 0x80 }

/-- The byte a port read returns: bits 7:5 from the open bus, bits 4:1 zero, bit 0 serial (R105). -/
def Pad.serialByte (p : Pad) (strobe : Bool) (openBus : Byte) : Byte :=
  (openBus &&& 0xE0) ||| ((p.strobed strobe).shift &&& 0x01)

/-! ### Resolution of one access -/

/-- The regions of the CPU address space, by the tests of R84 and R85 in their order. -/
inductive Region where
  | ram
  | picture
  | io
  | cartridge
  deriving DecidableEq, Repr

/-- The region that claims an address (R84, R85, R95): `io` is the write window 0x4000..0x4017. -/
def regionOf (a : Word) : Region :=
  if a.toNat ≤ 0x1FFF then .ram
  else if a.toNat ≤ 0x3FFF then .picture
  else if a.toNat ≤ 0x4017 then .io
  else .cartridge

/-- Internal RAM at a CPU address: `ram[a & 0x7FF]` (R86). -/
def ramIndex (a : Word) : Nat := a.toNat % 0x800

/-- `open_bus <- v; return v`: a claimed read drives the bus (R84, R92). -/
def drive (v : Byte) (s : State) : Byte × State := (v, { s with openBus := v })

/-- The mapper step of `BusRead`: a claimed byte is driven, an unclaimed address returns the open bus (R84, R89). -/
def mapperRead (s : State) (a : Word) : Byte × State :=
  match cpuRead s.cart a with
  | some b => drive b s
  | none => (s.openBus, s)

/-- A read of the I/O window 0x4000..0x4017: only 0x4015, 0x4016 and 0x4017 are claimed; 0x4015 does not drive the bus
(R84, R88). -/
def ioRead (s : State) (a : Word) : Byte × State :=
  if a = 0x4015 then (s.apu.statusByte s.openBus, { s with apu := s.apu.afterStatusRead })
  else if a = 0x4016 then
    drive (s.pad1.serialByte s.strobe s.openBus) { s with pad1 := s.pad1.afterRead s.strobe }
  else if a = 0x4017 then
    drive (s.pad2.serialByte s.strobe s.openBus) { s with pad2 := s.pad2.afterRead s.strobe }
  else mapperRead s a

/-- `BusRead(a)` (R84): the byte and the state with every side effect of the read. -/
def busRead (s : State) (a : Word) : Byte × State :=
  match regionOf a with
  | .ram => drive (Cells.read s.ram (ramIndex a)) s
  | .picture => let r := ppuRegRead s (ppuRegOf a); drive r.1 r.2
  | .io => ioRead s a
  | .cartridge => mapperRead s a

/-- `Peek(a)`: what `BusRead(a)` would return, without its side effects (R94). -/
def peek (s : State) (a : Word) : Byte := (busRead s a).1

/-- `IoWrite(a, val)` (R88, R552): the write dispatch of 0x4000..0x4017. -/
def ioWrite (s : State) (a : Word) (val : Byte) : State :=
  if a.toNat < 0x4014 then { s with apu := s.apu.channelWrite (a.toNat % 0x20) val }
  else if a = 0x4014 then { s with cpu := { s.cpu with dmaPage := some val } }
  else if a = 0x4015 then { s with apu := s.apu.enableWrite val }
  else if a = 0x4016 then strobeWrite s val
  else { s with apu := { s.apu with seq := s.apu.seq.write val (s.cpu.cycles + 1) } }

/-- `BusWrite(a, v)` (R85): the value is driven first, claimed or not. -/
def busWrite (s : State) (a : Word) (v : Byte) : State :=
  let s := { s with openBus := v }
  match regionOf a with
  | .ram => { s with ram := Cells.write s.ram (ramIndex a) v }
  | .picture => ppuRegWrite s (ppuRegOf a) v
  | .io => ioWrite s a v
  | .cartridge => { s with cart := cpuWrite s.cart s.chip a v }

/-! ### The cycle -/

/-- `irq_line = frame_irq OR dmc.irq_flag OR mapper.irq_flag` (R403). -/
def irqLine (s : State) : Bool := s.apu.seq.frameIrq || s.apu.dmc.irqFlag || mapperIrq s.cart

/-- `cpu_cycles <- cpu_cycles + 1; tick <- tick + 1` (R622). -/
def countCycle (s : State) : State :=
  { s with cpu := { s.cpu with cycles := s.cpu.cycles + 1, tick := s.cpu.tick + 1 } }

/-- `ApuTick()` on the whole state (R520). -/
def apuTick (s : State) : State := { s with apu := s.apu.tick s.chip.noiseTableLen s.cpu.cycles (dmcFetch s.cart s.openBus) }

/-- The observation of the NMI line at the end of a cycle (R39, R622). -/
def observeNmi (s : State) : State :=
  { s with
    cpu :=
      { s.cpu with
        nmiPending := s.cpu.nmiPending || (nmiLine s.ppu && !s.cpu.nmiPrev)
        nmiPrev := nmiLine s.ppu } }

/-- `MAPPER.on_cpu_cycle()` (R583, R622). -/
def mapperCycle (s : State) : State := { s with cart := onCpuCycle s.cart }

/-- The three dots, the audio tick and the mapper hook of a cycle, after the counters (R622). -/
def unitsCycle (s : State) : State := mapperCycle (apuTick (ppuDot (ppuDot (ppuDot (countCycle s)))))

/-- `Tick()` (R622): the counters, three dots, one audio tick, the mapper hook, the NMI line. -/
def tick (s : State) : State := observeNmi (unitsCycle s)

/-- `Rd(a)`: one bus read and its cycle (R10). -/
def rd (s : State) (a : Word) : Byte × State :=
  let r := busRead s a
  (r.1, tick r.2)

/-- `Wr(a, v)`: one bus write and its cycle (R10). -/
def wr (s : State) (a : Word) (v : Byte) : State := tick (busWrite s a v)

end Sys2Proof.Machine
end

