-- ==== Sys2Proof/Machine/Flags.lean ====
section
/-! DEFINITION. The six flags: packing (10_state.md R36, R38), `SetNZ` (00_scope.md R12), the adder (R212), the
comparison (R213), the shift functions (R229 to R232), and the register writes that set flags. Everything here is a
function of the processor's own registers: no bus access. -/

namespace Sys2Proof.Machine

/-! ### Packing (R38) -/

/-- `PackP(b) = {N, V, 1, b, D, I, Z, C}` (R38). -/
def packP (c : Cpu) (b : Bool) : Byte :=
  BitVec.ofBool c.n ++ BitVec.ofBool c.v ++ BitVec.ofBool true ++ BitVec.ofBool b ++
    BitVec.ofBool c.d ++ BitVec.ofBool c.i ++ BitVec.ofBool c.z ++ BitVec.ofBool c.c

/-- `UnpackP(v)` (R38): bits 5 and 4 are ignored. -/
def unpackP (v : Byte) (c : Cpu) : Cpu :=
  { c with
    n := v.getLsbD 7, v := v.getLsbD 6, d := v.getLsbD 3, i := v.getLsbD 2, z := v.getLsbD 1, c := v.getLsbD 0 }

/-! ### Results -/

/-- `SetNZ(v)` (R12). -/
def setNZ (v : Byte) (c : Cpu) : Cpu := { c with z := v == 0, n := v.getLsbD 7 }

/-- `AddWithCarry(a, m, c)` (R212): the byte, the carry, the overflow, from the exact sum 0..511. -/
def addWithCarry (a m : Byte) (carry : Bool) : Byte × Bool × Bool :=
  let t := a.toNat + m.toNat + carry.toNat
  let r := BitVec.ofNat 8 t
  (r, decide (0xFF < t), ((a ^^^ r) &&& (m ^^^ r)).getLsbD 7)

/-- `(A, C, V) <- AddWithCarry(A, m, C); SetNZ(A)` (R214): `D` is not read. -/
def addToA (m : Byte) (c : Cpu) : Cpu :=
  let r := addWithCarry c.a m c.c
  setNZ r.1 { c with a := r.1, c := r.2.1, v := r.2.2 }

/-- Subtraction is addition of the one's complement (R215). -/
def subtractFromA (m : Byte) (c : Cpu) : Cpu := addToA (m ^^^ 0xFF) c

/-- `Compare(r, m)` (R213): `V` and the incoming carry take no part. -/
def compareFlags (r m : Byte) (c : Cpu) : Cpu :=
  { c with c := decide (m.toNat ≤ r.toNat), z := r == m, n := (r - m).getLsbD 7 }

/-- The flags of `BIT` (R219): N and V are bits of the operand, Z is of the conjunction. -/
def bitFlags (m : Byte) (c : Cpu) : Cpu :=
  { c with z := (c.a &&& m) == 0, n := m.getLsbD 7, v := m.getLsbD 6 }

/-! ### Shift functions: the new byte and the carry out -/

/-- `f` of ASL (R229). -/
def aslByte (v : Byte) : Byte × Bool := (v <<< 1, v.getLsbD 7)

/-- `f` of LSR (R230). -/
def lsrByte (v : Byte) : Byte × Bool := (v >>> 1, v.getLsbD 0)

/-- `f` of ROL (R231): the carry before the instruction enters at bit 0. -/
def rolByte (carry : Bool) (v : Byte) : Byte × Bool :=
  ((v <<< 1) ||| (BitVec.ofBool carry).setWidth 8, v.getLsbD 7)

/-- `f` of ROR (R232): the carry before the instruction enters at bit 7. -/
def rorByte (carry : Bool) (v : Byte) : Byte × Bool :=
  ((v >>> 1) ||| ((BitVec.ofBool carry).setWidth 8 <<< 7), v.getLsbD 0)

/-! ### Register writes with their flags -/

/-- `A <- v; SetNZ(A)`. -/
def loadA (v : Byte) (c : Cpu) : Cpu := setNZ v { c with a := v }

/-- `X <- v; SetNZ(X)`. -/
def loadX (v : Byte) (c : Cpu) : Cpu := setNZ v { c with x := v }

/-- `Y <- v; SetNZ(Y)`. -/
def loadY (v : Byte) (c : Cpu) : Cpu := setNZ v { c with y := v }

/-- `C <- b`. -/
def setC (b : Bool) (c : Cpu) : Cpu := { c with c := b }

/-- `I <- b`. -/
def setI (b : Bool) (c : Cpu) : Cpu := { c with i := b }

/-- `D <- b`. -/
def setD (b : Bool) (c : Cpu) : Cpu := { c with d := b }

/-- `V <- b`. -/
def setV (b : Bool) (c : Cpu) : Cpu := { c with v := b }

/-- `S <- v`: no flag. -/
def setS (v : Byte) (c : Cpu) : Cpu := { c with s := v }

/-- `PC <- w`. -/
def setPc (w : Word) (c : Cpu) : Cpu := { c with pc := w }

/-- A change of the processor alone. -/
def onCpu (f : Cpu → Cpu) (s : State) : State := { s with cpu := f s.cpu }

end Sys2Proof.Machine
end

