-- ==== Sys2Proof/Machine/Ops.lean ====
section
/-! DEFINITION. The named operations over the bus and the stack (00_scope.md R10), and the sequences that are no
instruction of their own: interrupt entry (R410) and the return from it (R246), reset (R413), the object-memory DMA
(R108) and the jammed step (R416). Every bus access is one `rd` or `wr`, so each charges its cycle. -/

namespace Sys2Proof.Machine

/-! ### Primitives (R10) -/

/-- `Fetch()`: `v <- Rd(PC); PC <- u16(PC + 1)`. -/
def fetch (s : State) : Byte × State :=
  let r := rd s s.cpu.pc
  (r.1, onCpu (setPc (r.2.cpu.pc + 1)) r.2)

/-- A read whose value is discarded. -/
def dummyRead (a : Word) (s : State) : State := (rd s a).2

/-- `0x0100 | S`, the address of the stack byte (R33). -/
def stackAddr (p : Byte) : Word := wordOf 0x01 p

/-- `Push(v)`: `Wr(0x0100 | S, v); S <- u8(S - 1)`. -/
def push (v : Byte) (s : State) : State :=
  let t := wr s (stackAddr s.cpu.s) v
  onCpu (setS (t.cpu.s - 1)) t

/-- `Pull()`: `S <- u8(S + 1); Rd(0x0100 | S)`. -/
def pull (s : State) : Byte × State :=
  let t := onCpu (setS (s.cpu.s + 1)) s
  rd t (stackAddr t.cpu.s)

/-- `Push(hi(w)); Push(lo(w))` (R82): the high byte lies at the higher address. -/
def pushWord (w : Word) (s : State) : State := push (loByte w) (push (hiByte w) s)

/-- `lo <- Pull(); hi <- Pull()`, as a word. -/
def pullWord (s : State) : Word × State :=
  let lo := pull s
  let hi := pull lo.2
  (wordOf hi.1 lo.1, hi.2)

/-- `n` times the same action. -/
def times (f : State → State) : Nat → State → State
  | 0, s => s
  | n + 1, s => times f n (f s)

/-- `Rd(PC)`, discarded. -/
def readPc (s : State) : State := dummyRead s.cpu.pc s

/-- `Rd(0x0100 | S)`, discarded. -/
def readStack (s : State) : State := dummyRead (stackAddr s.cpu.s) s

/-! ### Taking an exception, and the return from one -/

/-- `lo <- Rd(vector); hi <- Rd(vector + 1); PC <- {hi, lo}` (R410, R413, R245). -/
def loadVector (vector : Word) (s : State) : State :=
  let lo := rd s vector
  let hi := rd lo.2 (vector + 1)
  onCpu (setPc (wordOf hi.1 lo.1)) hi.2

/-- Taking an exception, from the first push on (R410, R245): PC and status to the stack with the given B bit, the old
`I` in the stacked byte; `I <- 1`; PC from the vector. -/
def enterHandler (vector : Word) (b : Bool) (s : State) : State :=
  let s := pushWord s.cpu.pc s
  let s := push (packP s.cpu b) s
  loadVector vector (onCpu (setI true) s)

/-- `Interrupt(vector)` (R410): the dummy reads, then the entry with B = 0. -/
def interrupt (vector : Word) (s : State) : State :=
  enterHandler vector false (times readPc (s.chip.intCycles.count - 5) s)

/-- The return from an exception, after its two dummy reads (R246, R415): the flags, then PC, from the stack; PC is not
incremented. -/
def returnFromHandler (s : State) : State :=
  let p := pull s
  let w := pullWord (onCpu (unpackP p.1) p.2)
  onCpu (setPc w.1) w.2

/-! ### Reset -/

/-- One of the three stack cycles of the reset sequence: a read in place of the push, `S` moved down (R413), or left where
it is when `RESET_S_DELTA` is 0 (log 11). -/
def resetPull (s : State) : State :=
  let t := readStack s
  onCpu (setS (t.cpu.s - s.chip.resetSDelta.perCycle)) t

/-- The three stack cycles of the reset sequence: reads, nothing written; `S` ends lower by `RESET_S_DELTA` (R413). -/
def resetStackCycles (s : State) : State := times resetPull 3 s

/-- What `ResetSequence()` leaves last: `jammed <- 0; nmi_pending <- 0; nmi_prev <- nmi_line; tick <- 0`, the scratch
cells dead (R413, R40). -/
def resetLatches (s : State) : State :=
  { s with
    cpu := { s.cpu with jammed := false, nmiPending := false, nmiPrev := nmiLine s.ppu, tick := 0, micro := .idle } }

/-- `ResetSequence()` (R413): the audio enables cleared with no bus cycle, then `RESET_CYCLES` = `INT_CYCLES` reads. -/
def resetSequence (s : State) : State :=
  let s := { s with apu := s.apu.enableWrite 0x00 }
  let s := times readPc (s.chip.intCycles.count - 5) s
  let s := onCpu (setI false) (resetStackCycles s)
  resetLatches (loadVector vecReset s)

/-! ### The jammed step -/

/-- `JammedStep()` (R416): one `Rd(0xFFFF)`, nothing else. -/
def jammedStep (s : State) : State := dummyRead 0xFFFF s

/-! ### Object-memory DMA -/

/-- One byte of the transfer: `b <- Rd({v, i}); Wr(0x2004, b)` (R108). -/
def dmaByte (page : Byte) (s : State) (i : Nat) : State :=
  let r := rd s (wordOf page (BitVec.ofNat 8 i))
  wr r.2 0x2004 r.1

/-- `n` bytes of the transfer from index `i` on. -/
def dmaBytes (page : Byte) : Nat → Nat → State → State
  | 0, _, s => s
  | n + 1, i, s => dmaBytes page n (i + 1) (dmaByte page s i)

/-- `OamDma()` (R108): `dma_page` emptied, the wait cycle, the alignment cycle where `cpu_cycles` is odd after it, 256
transfers. -/
def oamDma (page : Byte) (s : State) : State :=
  let s := onCpu (fun c => { c with dmaPage := none }) s
  let s := readPc s
  let s := if s.cpu.cycles % 2 = 1 then readPc s else s
  dmaBytes page 256 0 s

end Sys2Proof.Machine
end

