-- ==== Sys2Proof/Machine/Operands.lean ====
section
/-! DEFINITION. The operand forms (40_addressing_modes.md): address cycles, the read, write and modify sequences, and the
two helpers that have their own (StoreHigh R259, BranchOn R233). The operand bytes themselves have been fetched by the
step (log 6): the cycles here are those after the last operand byte. -/

namespace Sys2Proof.Machine

/-- A memory operand, by its addressing mode and operand bytes. -/
inductive Place where
  | zp (z : Byte)
  | zpx (z : Byte)
  | zpy (z : Byte)
  | abs (w : Word)
  | abx (w : Word)
  | aby (w : Word)
  | izx (z : Byte)
  | izy (z : Byte)
  deriving DecidableEq, Repr

/-- An operand that is read: immediate (R171) or in memory. -/
inductive Source where
  | imm (b : Byte)
  | mem (p : Place)
  deriving DecidableEq, Repr

/-- The kinds of access of R188. -/
inductive Kind where
  | read
  | modify
  | write
  deriving DecidableEq, Repr

/-! ### Address cycles -/

/-- The zero-page address `{0x00, z}` (R173). -/
def zeroPage (z : Byte) : Word := wordOf 0x00 z

/-- The word in zero page at `p`, the second byte from `u8(p + 1)` (R180, R181). -/
def readPointer (p : Byte) (s : State) : Word × State :=
  let lo := rd s (zeroPage p)
  let hi := rd lo.2 (zeroPage (p + 1))
  (wordOf hi.1 lo.1, hi.2)

/-- The address before the carrying index is added, and the cycles that form it (R172 to R181). -/
def baseOf (p : Place) (s : State) : Word × State :=
  match p with
  | .zp z => (zeroPage z, s)
  | .zpx z => (zeroPage (z + s.cpu.x), dummyRead (zeroPage z) s)
  | .zpy z => (zeroPage (z + s.cpu.y), dummyRead (zeroPage z) s)
  | .abs w => (w, s)
  | .abx w => (w, s)
  | .aby w => (w, s)
  | .izx z => readPointer (z + s.cpu.x) (dummyRead (zeroPage z) s)
  | .izy z => readPointer z s

/-- The index that is added with a carry into the high byte, where the mode has one (R177, R178, R181). -/
def indexOf (p : Place) (c : Cpu) : Option Byte :=
  match p with
  | .abx _ => some c.x
  | .aby _ => some c.y
  | .izy _ => some c.y
  | _ => none

/-- `u16(base + index)` (R177). -/
def indexedAddr (base : Word) (index : Byte) : Word := base + index.setWidth 16

/-- `crossed`: `(lo + index) > 0xFF` (R186). -/
def crossesPage (base : Word) (index : Byte) : Bool := decide (0xFF < (loByte base).toNat + index.toNat)

/-- `early`: the address before the carry into the high byte is applied (R177). -/
def earlyAddr (base : Word) (index : Byte) : Word := wordOf (hiByte base) (loByte base + index)

/-- Cycle 4 of the indexed modes (R177, R178, R181): a read skips the dummy read where no page is crossed. -/
def indexCycle (k : Kind) (base : Word) (index : Byte) (s : State) : State :=
  if k = .read ∧ crossesPage base index = false then s else dummyRead (earlyAddr base index) s

/-- The address cycles of a mode: the effective address and the state after them. -/
def addressCycles (k : Kind) (p : Place) (s : State) : Word × State :=
  let b := baseOf p s
  match indexOf p s.cpu with
  | none => b
  | some index => (indexedAddr b.1 index, indexCycle k b.1 index b.2)

/-! ### Access cycles -/

/-- `ReadOperand(mode)` (R183, R171). -/
def readOperand (o : Source) (s : State) : Byte × State :=
  match o with
  | .imm b => (b, s)
  | .mem p => let a := addressCycles .read p s; rd a.2 a.1

/-- `WriteOperand(mode, v)` (R185). -/
def writeOperand (p : Place) (v : Byte) (s : State) : State :=
  let a := addressCycles .write p s
  wr a.2 a.1 v

/-- `ModifyOperand(mode, f)` (R184): the old byte, and the state after the double write. The new byte is `f` of it. -/
def modifyOperand (p : Place) (f : Byte → Byte) (s : State) : Byte × State :=
  let a := addressCycles .modify p s
  let v := rd a.2 a.1
  (v.1, wr (wr v.2 a.1 v.1) a.1 (f v.1))

/-! ### Instruction shapes -/

/-- A read instruction: the operand, then a change of the processor's registers by it. -/
def readInstr (f : Byte → Cpu → Cpu) (o : Source) (s : State) : State :=
  let r := readOperand o s
  onCpu (f r.1) r.2

/-- A store of a byte of the processor's registers. -/
def storeInstr (f : Cpu → Byte) (p : Place) (s : State) : State := writeOperand p (f s.cpu) s

/-- A read-modify-write instruction: `f` gives, from the old byte and the registers, the byte stored and the new
registers. -/
def modifyInstr (f : Byte → Cpu → Byte × Cpu) (p : Place) (s : State) : State :=
  let r := modifyOperand p (fun v => (f v s.cpu).1) s
  onCpu (fun c => (f r.1 c).2) r.2

/-- An instruction in implied or accumulator mode (R170, R174): the dummy read, then a change of the registers. -/
def impliedInstr (f : Cpu → Cpu) (s : State) : State := onCpu f (readPc s)

/-! ### Helpers of their own -/

/-- The address of `StoreHigh` (R259): the high byte ANDed with `r` where a page was crossed. -/
def storeHighAddr (base : Word) (index r : Byte) : Word :=
  let ea := indexedAddr base index
  if crossesPage base index then wordOf (hiByte ea &&& r) (loByte ea) else ea

/-- The byte of `StoreHigh` (R259): `r & u8(H + 1)`. -/
def storeHighByte (base : Word) (r : Byte) : Byte := r &&& (hiByte base + 1)

/-- `StoreHigh(mode, r)` (R259), for the modes with a carrying index. -/
def storeHigh (p : Place) (r : Byte) (s : State) : State :=
  let b := baseOf p s
  let index := (indexOf p s.cpu).getD 0
  wr (indexCycle .write b.1 index b.2) (storeHighAddr b.1 index r) (storeHighByte b.1 r)

/-- The target of a branch: `u16(PC + sext_16(off))` (R233). -/
def branchTarget (pc : Word) (off : Byte) : Word := pc + off.signExtend 16

/-- `BranchOn(cond)` after the displacement is fetched (R233). -/
def branchOn (cond : Bool) (off : Byte) (s : State) : State :=
  if cond then
    let pc := s.cpu.pc
    let target := branchTarget pc off
    let s := readPc s
    let s := if hiByte target ≠ hiByte pc then dummyRead (wordOf (hiByte pc) (loByte target)) s else s
    onCpu (setPc target) s
  else s

end Sys2Proof.Machine
end

