-- ==== Sys2Proof/Machine/ArithLogic.lean ====
section
/-! DEFINITION. Arithmetic, logic, compare, increment and decrement (42_arithmetic_logic.md). One meaning per
constructor; each answers a next state (R400: no instruction faults). -/

namespace Sys2Proof.Machine

/-! ### Register effects, from the operand byte -/

/-- R216: `A <- A & M; SetNZ(A)`. -/
def andFn (m : Byte) (c : Cpu) : Cpu := loadA (c.a &&& m) c

/-- R217: `A <- A | M; SetNZ(A)`. -/
def oraFn (m : Byte) (c : Cpu) : Cpu := loadA (c.a ||| m) c

/-- R218: `A <- A ^ M; SetNZ(A)`. -/
def eorFn (m : Byte) (c : Cpu) : Cpu := loadA (c.a ^^^ m) c

/-- R220: `Compare(A, M)`. -/
def cmpFn (m : Byte) (c : Cpu) : Cpu := compareFlags c.a m c

/-- R221: `Compare(X, M)`. -/
def cpxFn (m : Byte) (c : Cpu) : Cpu := compareFlags c.x m c

/-- R222: `Compare(Y, M)`. -/
def cpyFn (m : Byte) (c : Cpu) : Cpu := compareFlags c.y m c

/-- R223: the byte `u8(v + 1)`, N and Z from it. -/
def incFn (v : Byte) (c : Cpu) : Byte × Cpu := (v + 1, setNZ (v + 1) c)

/-- R224: the byte `u8(v - 1)`, N and Z from it. -/
def decFn (v : Byte) (c : Cpu) : Byte × Cpu := (v - 1, setNZ (v - 1) c)

/-! ### Shared by the forms of one mnemonic -/

/-- R214: `(A, C, V) <- AddWithCarry(A, M, C); SetNZ(A)`. -/
def adc (o : Source) (s : State) : State := readInstr addToA o s

/-- R215: `(A, C, V) <- AddWithCarry(A, M ^ 0xFF, C); SetNZ(A)`. -/
def sbc (o : Source) (s : State) : State := readInstr subtractFromA o s

/-- R216. -/
def andA (o : Source) (s : State) : State := readInstr andFn o s

/-- R217. -/
def ora (o : Source) (s : State) : State := readInstr oraFn o s

/-- R218. -/
def eor (o : Source) (s : State) : State := readInstr eorFn o s

/-- R219. -/
def bitTest (o : Source) (s : State) : State := readInstr bitFlags o s

/-- R220. -/
def cmp (o : Source) (s : State) : State := readInstr cmpFn o s

/-- R221. -/
def cpx (o : Source) (s : State) : State := readInstr cpxFn o s

/-- R222. -/
def cpy (o : Source) (s : State) : State := readInstr cpyFn o s

/-- R223. -/
def inc (p : Place) (s : State) : State := modifyInstr incFn p s

/-- R224. -/
def dec (p : Place) (s : State) : State := modifyInstr decFn p s

/-! ### ADC (R214) -/

/-- 0x69 `ADC #$nn` (R214, R171). -/
def execAdcImm (imm : Byte) (s : State) : Host.Outcome State Fault Refusal :=
  .next (adc (.imm imm) s)

/-- 0x65 `ADC $nn` (R214, R173). -/
def execAdcZp (z : Byte) (s : State) : Host.Outcome State Fault Refusal :=
  .next (adc (.mem (.zp z)) s)

/-- 0x75 `ADC $nn,X` (R214, R175). -/
def execAdcZpx (z : Byte) (s : State) : Host.Outcome State Fault Refusal :=
  .next (adc (.mem (.zpx z)) s)

/-- 0x6D `ADC $nnnn` (R214, R172). -/
def execAdcAbs (w : Word) (s : State) : Host.Outcome State Fault Refusal :=
  .next (adc (.mem (.abs w)) s)

/-- 0x7D `ADC $nnnn,X` (R214, R177). -/
def execAdcAbx (w : Word) (s : State) : Host.Outcome State Fault Refusal :=
  .next (adc (.mem (.abx w)) s)

/-- 0x79 `ADC $nnnn,Y` (R214, R178). -/
def execAdcAby (w : Word) (s : State) : Host.Outcome State Fault Refusal :=
  .next (adc (.mem (.aby w)) s)

/-- 0x61 `ADC ($nn,X)` (R214, R180). -/
def execAdcIzx (z : Byte) (s : State) : Host.Outcome State Fault Refusal :=
  .next (adc (.mem (.izx z)) s)

/-- 0x71 `ADC ($nn),Y` (R214, R181). -/
def execAdcIzy (z : Byte) (s : State) : Host.Outcome State Fault Refusal :=
  .next (adc (.mem (.izy z)) s)

/-! ### SBC (R215) -/

/-- 0xE9 `SBC #$nn` (R215, R171). -/
def execSbcImm (imm : Byte) (s : State) : Host.Outcome State Fault Refusal :=
  .next (sbc (.imm imm) s)

/-- 0xE5 `SBC $nn` (R215, R173). -/
def execSbcZp (z : Byte) (s : State) : Host.Outcome State Fault Refusal :=
  .next (sbc (.mem (.zp z)) s)

/-- 0xF5 `SBC $nn,X` (R215, R175). -/
def execSbcZpx (z : Byte) (s : State) : Host.Outcome State Fault Refusal :=
  .next (sbc (.mem (.zpx z)) s)

/-- 0xED `SBC $nnnn` (R215, R172). -/
def execSbcAbs (w : Word) (s : State) : Host.Outcome State Fault Refusal :=
  .next (sbc (.mem (.abs w)) s)

/-- 0xFD `SBC $nnnn,X` (R215, R177). -/
def execSbcAbx (w : Word) (s : State) : Host.Outcome State Fault Refusal :=
  .next (sbc (.mem (.abx w)) s)

/-- 0xF9 `SBC $nnnn,Y` (R215, R178). -/
def execSbcAby (w : Word) (s : State) : Host.Outcome State Fault Refusal :=
  .next (sbc (.mem (.aby w)) s)

/-- 0xE1 `SBC ($nn,X)` (R215, R180). -/
def execSbcIzx (z : Byte) (s : State) : Host.Outcome State Fault Refusal :=
  .next (sbc (.mem (.izx z)) s)

/-- 0xF1 `SBC ($nn),Y` (R215, R181). -/
def execSbcIzy (z : Byte) (s : State) : Host.Outcome State Fault Refusal :=
  .next (sbc (.mem (.izy z)) s)

/-! ### AND (R216) -/

/-- 0x29 `AND #$nn` (R216, R171). -/
def execAndImm (imm : Byte) (s : State) : Host.Outcome State Fault Refusal :=
  .next (andA (.imm imm) s)

/-- 0x25 `AND $nn` (R216, R173). -/
def execAndZp (z : Byte) (s : State) : Host.Outcome State Fault Refusal :=
  .next (andA (.mem (.zp z)) s)

/-- 0x35 `AND $nn,X` (R216, R175). -/
def execAndZpx (z : Byte) (s : State) : Host.Outcome State Fault Refusal :=
  .next (andA (.mem (.zpx z)) s)

/-- 0x2D `AND $nnnn` (R216, R172). -/
def execAndAbs (w : Word) (s : State) : Host.Outcome State Fault Refusal :=
  .next (andA (.mem (.abs w)) s)

/-- 0x3D `AND $nnnn,X` (R216, R177). -/
def execAndAbx (w : Word) (s : State) : Host.Outcome State Fault Refusal :=
  .next (andA (.mem (.abx w)) s)

/-- 0x39 `AND $nnnn,Y` (R216, R178). -/
def execAndAby (w : Word) (s : State) : Host.Outcome State Fault Refusal :=
  .next (andA (.mem (.aby w)) s)

/-- 0x21 `AND ($nn,X)` (R216, R180). -/
def execAndIzx (z : Byte) (s : State) : Host.Outcome State Fault Refusal :=
  .next (andA (.mem (.izx z)) s)

/-- 0x31 `AND ($nn),Y` (R216, R181). -/
def execAndIzy (z : Byte) (s : State) : Host.Outcome State Fault Refusal :=
  .next (andA (.mem (.izy z)) s)

/-! ### ORA (R217) -/

/-- 0x09 `ORA #$nn` (R217, R171). -/
def execOraImm (imm : Byte) (s : State) : Host.Outcome State Fault Refusal :=
  .next (ora (.imm imm) s)

/-- 0x05 `ORA $nn` (R217, R173). -/
def execOraZp (z : Byte) (s : State) : Host.Outcome State Fault Refusal :=
  .next (ora (.mem (.zp z)) s)

/-- 0x15 `ORA $nn,X` (R217, R175). -/
def execOraZpx (z : Byte) (s : State) : Host.Outcome State Fault Refusal :=
  .next (ora (.mem (.zpx z)) s)

/-- 0x0D `ORA $nnnn` (R217, R172). -/
def execOraAbs (w : Word) (s : State) : Host.Outcome State Fault Refusal :=
  .next (ora (.mem (.abs w)) s)

/-- 0x1D `ORA $nnnn,X` (R217, R177). -/
def execOraAbx (w : Word) (s : State) : Host.Outcome State Fault Refusal :=
  .next (ora (.mem (.abx w)) s)

/-- 0x19 `ORA $nnnn,Y` (R217, R178). -/
def execOraAby (w : Word) (s : State) : Host.Outcome State Fault Refusal :=
  .next (ora (.mem (.aby w)) s)

/-- 0x01 `ORA ($nn,X)` (R217, R180). -/
def execOraIzx (z : Byte) (s : State) : Host.Outcome State Fault Refusal :=
  .next (ora (.mem (.izx z)) s)

/-- 0x11 `ORA ($nn),Y` (R217, R181). -/
def execOraIzy (z : Byte) (s : State) : Host.Outcome State Fault Refusal :=
  .next (ora (.mem (.izy z)) s)

/-! ### EOR (R218) -/

/-- 0x49 `EOR #$nn` (R218, R171). -/
def execEorImm (imm : Byte) (s : State) : Host.Outcome State Fault Refusal :=
  .next (eor (.imm imm) s)

/-- 0x45 `EOR $nn` (R218, R173). -/
def execEorZp (z : Byte) (s : State) : Host.Outcome State Fault Refusal :=
  .next (eor (.mem (.zp z)) s)

/-- 0x55 `EOR $nn,X` (R218, R175). -/
def execEorZpx (z : Byte) (s : State) : Host.Outcome State Fault Refusal :=
  .next (eor (.mem (.zpx z)) s)

/-- 0x4D `EOR $nnnn` (R218, R172). -/
def execEorAbs (w : Word) (s : State) : Host.Outcome State Fault Refusal :=
  .next (eor (.mem (.abs w)) s)

/-- 0x5D `EOR $nnnn,X` (R218, R177). -/
def execEorAbx (w : Word) (s : State) : Host.Outcome State Fault Refusal :=
  .next (eor (.mem (.abx w)) s)

/-- 0x59 `EOR $nnnn,Y` (R218, R178). -/
def execEorAby (w : Word) (s : State) : Host.Outcome State Fault Refusal :=
  .next (eor (.mem (.aby w)) s)

/-- 0x41 `EOR ($nn,X)` (R218, R180). -/
def execEorIzx (z : Byte) (s : State) : Host.Outcome State Fault Refusal :=
  .next (eor (.mem (.izx z)) s)

/-- 0x51 `EOR ($nn),Y` (R218, R181). -/
def execEorIzy (z : Byte) (s : State) : Host.Outcome State Fault Refusal :=
  .next (eor (.mem (.izy z)) s)

/-! ### BIT (R219) -/

/-- 0x24 `BIT $nn` (R219, R173). -/
def execBitZp (z : Byte) (s : State) : Host.Outcome State Fault Refusal :=
  .next (bitTest (.mem (.zp z)) s)

/-- 0x2C `BIT $nnnn` (R219, R172). -/
def execBitAbs (w : Word) (s : State) : Host.Outcome State Fault Refusal :=
  .next (bitTest (.mem (.abs w)) s)

/-! ### CMP (R220) -/

/-- 0xC9 `CMP #$nn` (R220, R171). -/
def execCmpImm (imm : Byte) (s : State) : Host.Outcome State Fault Refusal :=
  .next (cmp (.imm imm) s)

/-- 0xC5 `CMP $nn` (R220, R173). -/
def execCmpZp (z : Byte) (s : State) : Host.Outcome State Fault Refusal :=
  .next (cmp (.mem (.zp z)) s)

/-- 0xD5 `CMP $nn,X` (R220, R175). -/
def execCmpZpx (z : Byte) (s : State) : Host.Outcome State Fault Refusal :=
  .next (cmp (.mem (.zpx z)) s)

/-- 0xCD `CMP $nnnn` (R220, R172). -/
def execCmpAbs (w : Word) (s : State) : Host.Outcome State Fault Refusal :=
  .next (cmp (.mem (.abs w)) s)

/-- 0xDD `CMP $nnnn,X` (R220, R177). -/
def execCmpAbx (w : Word) (s : State) : Host.Outcome State Fault Refusal :=
  .next (cmp (.mem (.abx w)) s)

/-- 0xD9 `CMP $nnnn,Y` (R220, R178). -/
def execCmpAby (w : Word) (s : State) : Host.Outcome State Fault Refusal :=
  .next (cmp (.mem (.aby w)) s)

/-- 0xC1 `CMP ($nn,X)` (R220, R180). -/
def execCmpIzx (z : Byte) (s : State) : Host.Outcome State Fault Refusal :=
  .next (cmp (.mem (.izx z)) s)

/-- 0xD1 `CMP ($nn),Y` (R220, R181). -/
def execCmpIzy (z : Byte) (s : State) : Host.Outcome State Fault Refusal :=
  .next (cmp (.mem (.izy z)) s)

/-! ### CPX (R221) -/

/-- 0xE0 `CPX #$nn` (R221, R171). -/
def execCpxImm (imm : Byte) (s : State) : Host.Outcome State Fault Refusal :=
  .next (cpx (.imm imm) s)

/-- 0xE4 `CPX $nn` (R221, R173). -/
def execCpxZp (z : Byte) (s : State) : Host.Outcome State Fault Refusal :=
  .next (cpx (.mem (.zp z)) s)

/-- 0xEC `CPX $nnnn` (R221, R172). -/
def execCpxAbs (w : Word) (s : State) : Host.Outcome State Fault Refusal :=
  .next (cpx (.mem (.abs w)) s)

/-! ### CPY (R222) -/

/-- 0xC0 `CPY #$nn` (R222, R171). -/
def execCpyImm (imm : Byte) (s : State) : Host.Outcome State Fault Refusal :=
  .next (cpy (.imm imm) s)

/-- 0xC4 `CPY $nn` (R222, R173). -/
def execCpyZp (z : Byte) (s : State) : Host.Outcome State Fault Refusal :=
  .next (cpy (.mem (.zp z)) s)

/-- 0xCC `CPY $nnnn` (R222, R172). -/
def execCpyAbs (w : Word) (s : State) : Host.Outcome State Fault Refusal :=
  .next (cpy (.mem (.abs w)) s)

/-! ### INC (R223) -/

/-- 0xE6 `INC $nn` (R223, R173). -/
def execIncZp (z : Byte) (s : State) : Host.Outcome State Fault Refusal :=
  .next (inc (.zp z) s)

/-- 0xF6 `INC $nn,X` (R223, R175). -/
def execIncZpx (z : Byte) (s : State) : Host.Outcome State Fault Refusal :=
  .next (inc (.zpx z) s)

/-- 0xEE `INC $nnnn` (R223, R172). -/
def execIncAbs (w : Word) (s : State) : Host.Outcome State Fault Refusal :=
  .next (inc (.abs w) s)

/-- 0xFE `INC $nnnn,X` (R223, R177). -/
def execIncAbx (w : Word) (s : State) : Host.Outcome State Fault Refusal :=
  .next (inc (.abx w) s)

/-! ### DEC (R224) -/

/-- 0xC6 `DEC $nn` (R224, R173). -/
def execDecZp (z : Byte) (s : State) : Host.Outcome State Fault Refusal :=
  .next (dec (.zp z) s)

/-- 0xD6 `DEC $nn,X` (R224, R175). -/
def execDecZpx (z : Byte) (s : State) : Host.Outcome State Fault Refusal :=
  .next (dec (.zpx z) s)

/-- 0xCE `DEC $nnnn` (R224, R172). -/
def execDecAbs (w : Word) (s : State) : Host.Outcome State Fault Refusal :=
  .next (dec (.abs w) s)

/-- 0xDE `DEC $nnnn,X` (R224, R177). -/
def execDecAbx (w : Word) (s : State) : Host.Outcome State Fault Refusal :=
  .next (dec (.abx w) s)

/-! ### INX (R225) -/

/-- 0xE8 `INX` (R225, R170). -/
def execInx (s : State) : Host.Outcome State Fault Refusal :=
  .next (impliedInstr (fun c => loadX (c.x + 1) c) s)

/-! ### INY (R226) -/

/-- 0xC8 `INY` (R226, R170). -/
def execIny (s : State) : Host.Outcome State Fault Refusal :=
  .next (impliedInstr (fun c => loadY (c.y + 1) c) s)

/-! ### DEX (R227) -/

/-- 0xCA `DEX` (R227, R170). -/
def execDex (s : State) : Host.Outcome State Fault Refusal :=
  .next (impliedInstr (fun c => loadX (c.x - 1) c) s)

/-! ### DEY (R228) -/

/-- 0x88 `DEY` (R228, R170). -/
def execDey (s : State) : Host.Outcome State Fault Refusal :=
  .next (impliedInstr (fun c => loadY (c.y - 1) c) s)

end Sys2Proof.Machine
end

