-- ==== Sys2Proof/Machine/ControlFlow.lean ====
section
/-! DEFINITION. Jumps, subroutines, branches, break and return from interrupt (44_control_flow.md). One meaning per
constructor; each answers a next state (R400: no instruction faults). -/

namespace Sys2Proof.Machine

/-! ### JMP (R234) -/

/-- 0x4C `JMP $nnnn` (R234, R172): `PC <- {hi, lo}`, the high byte having been read as the third instruction byte (log 6). -/
def execJmpAbs (w : Word) (s : State) : Host.Outcome State Fault Refusal :=
  .next (onCpu (setPc w) s)

/-- 0x6C `JMP ($nnnn)` (R234, R182): `lo <- Rd({ph, pl}); hi <- Rd({ph, u8(pl + 1)}); PC <- {hi, lo}`: no carry into the pointer's high byte. -/
def execJmpInd (ptr : Word) (s : State) : Host.Outcome State Fault Refusal :=
  let lo := rd s ptr
  let hi := rd lo.2 (wordOf (hiByte ptr) (loByte ptr + 1))
  .next (onCpu (setPc (wordOf hi.1 lo.1)) hi.2)

/-! ### JSR (R235) -/

/-- 0x20 `JSR $nnnn` (R235, R172): dummy stack read, the address of the third byte pushed, `hi <- Rd(PC)`, PC. The step hands over the
high byte that this last read returns (log 6). -/
def execJsrAbs (w : Word) (s : State) : Host.Outcome State Fault Refusal :=
  let t := readPc (pushWord s.cpu.pc (readStack s))
  .next (onCpu (setPc w) t)

/-! ### RTS (R236) -/

/-- 0x60 `RTS` (R236, R170): dummy reads, the word pulled, `Rd(PC)` there, then PC steps past it. -/
def execRts (s : State) : Host.Outcome State Fault Refusal :=
  let r := pullWord (readStack (readPc s))
  let t := readPc (onCpu (setPc r.1) r.2)
  .next (onCpu (setPc (t.cpu.pc + 1)) t)

/-! ### BCC (R237) -/

/-- 0x90 `BCC label` (R237, R179). -/
def execBccRel (off : Byte) (s : State) : Host.Outcome State Fault Refusal :=
  .next (branchOn (!s.cpu.c) off s)

/-! ### BCS (R238) -/

/-- 0xB0 `BCS label` (R238, R179). -/
def execBcsRel (off : Byte) (s : State) : Host.Outcome State Fault Refusal :=
  .next (branchOn s.cpu.c off s)

/-! ### BEQ (R239) -/

/-- 0xF0 `BEQ label` (R239, R179). -/
def execBeqRel (off : Byte) (s : State) : Host.Outcome State Fault Refusal :=
  .next (branchOn s.cpu.z off s)

/-! ### BNE (R240) -/

/-- 0xD0 `BNE label` (R240, R179). -/
def execBneRel (off : Byte) (s : State) : Host.Outcome State Fault Refusal :=
  .next (branchOn (!s.cpu.z) off s)

/-! ### BMI (R241) -/

/-- 0x30 `BMI label` (R241, R179). -/
def execBmiRel (off : Byte) (s : State) : Host.Outcome State Fault Refusal :=
  .next (branchOn s.cpu.n off s)

/-! ### BPL (R242) -/

/-- 0x10 `BPL label` (R242, R179). -/
def execBplRel (off : Byte) (s : State) : Host.Outcome State Fault Refusal :=
  .next (branchOn (!s.cpu.n) off s)

/-! ### BVC (R243) -/

/-- 0x50 `BVC label` (R243, R179). -/
def execBvcRel (off : Byte) (s : State) : Host.Outcome State Fault Refusal :=
  .next (branchOn (!s.cpu.v) off s)

/-! ### BVS (R244) -/

/-- 0x70 `BVS label` (R244, R179). -/
def execBvsRel (off : Byte) (s : State) : Host.Outcome State Fault Refusal :=
  .next (branchOn s.cpu.v off s)

/-! ### BRK (R245) -/

/-- 0x00 `BRK` (R245, R170): the padding byte fetched, then the entry with B = 1 and the IRQ vector; 7 cycles. -/
def execBrk (s : State) : Host.Outcome State Fault Refusal :=
  .next (enterHandler vecIrq true (fetch s).2)

/-! ### RTI (R246) -/

/-- 0x40 `RTI` (R246, R170): dummy reads, then flags and PC from the stack. -/
def execRti (s : State) : Host.Outcome State Fault Refusal :=
  .next (returnFromHandler (readStack (readPc s)))

end Sys2Proof.Machine
end

