-- ==== Sys2Proof/Machine/LoadStore.lean ====
section
/-! DEFINITION. Load, store and register-transfer instructions (41_load_store_transfer.md). One meaning per
constructor; each answers a next state (R400: no instruction faults). -/

namespace Sys2Proof.Machine

/-! ### Shared by the forms of one mnemonic -/

/-- R200: `M <- ReadOperand(mode); A <- M; SetNZ(A)`. -/
def lda (o : Source) (s : State) : State := readInstr loadA o s

/-- R201: `M <- ReadOperand(mode); X <- M; SetNZ(X)`. -/
def ldx (o : Source) (s : State) : State := readInstr loadX o s

/-- R202: `M <- ReadOperand(mode); Y <- M; SetNZ(Y)`. -/
def ldy (o : Source) (s : State) : State := readInstr loadY o s

/-- R203: `WriteOperand(mode, A)`. -/
def sta (p : Place) (s : State) : State := storeInstr (fun c => c.a) p s

/-- R204: `WriteOperand(mode, X)`. -/
def stx (p : Place) (s : State) : State := storeInstr (fun c => c.x) p s

/-- R205: `WriteOperand(mode, Y)`. -/
def sty (p : Place) (s : State) : State := storeInstr (fun c => c.y) p s

/-! ### LDA (R200) -/

/-- 0xA9 `LDA #$nn` (R200, R171). -/
def execLdaImm (imm : Byte) (s : State) : Host.Outcome State Fault Refusal :=
  .next (lda (.imm imm) s)

/-- 0xA5 `LDA $nn` (R200, R173). -/
def execLdaZp (z : Byte) (s : State) : Host.Outcome State Fault Refusal :=
  .next (lda (.mem (.zp z)) s)

/-- 0xB5 `LDA $nn,X` (R200, R175). -/
def execLdaZpx (z : Byte) (s : State) : Host.Outcome State Fault Refusal :=
  .next (lda (.mem (.zpx z)) s)

/-- 0xAD `LDA $nnnn` (R200, R172). -/
def execLdaAbs (w : Word) (s : State) : Host.Outcome State Fault Refusal :=
  .next (lda (.mem (.abs w)) s)

/-- 0xBD `LDA $nnnn,X` (R200, R177). -/
def execLdaAbx (w : Word) (s : State) : Host.Outcome State Fault Refusal :=
  .next (lda (.mem (.abx w)) s)

/-- 0xB9 `LDA $nnnn,Y` (R200, R178). -/
def execLdaAby (w : Word) (s : State) : Host.Outcome State Fault Refusal :=
  .next (lda (.mem (.aby w)) s)

/-- 0xA1 `LDA ($nn,X)` (R200, R180). -/
def execLdaIzx (z : Byte) (s : State) : Host.Outcome State Fault Refusal :=
  .next (lda (.mem (.izx z)) s)

/-- 0xB1 `LDA ($nn),Y` (R200, R181). -/
def execLdaIzy (z : Byte) (s : State) : Host.Outcome State Fault Refusal :=
  .next (lda (.mem (.izy z)) s)

/-! ### LDX (R201) -/

/-- 0xA2 `LDX #$nn` (R201, R171). -/
def execLdxImm (imm : Byte) (s : State) : Host.Outcome State Fault Refusal :=
  .next (ldx (.imm imm) s)

/-- 0xA6 `LDX $nn` (R201, R173). -/
def execLdxZp (z : Byte) (s : State) : Host.Outcome State Fault Refusal :=
  .next (ldx (.mem (.zp z)) s)

/-- 0xB6 `LDX $nn,Y` (R201, R176). -/
def execLdxZpy (z : Byte) (s : State) : Host.Outcome State Fault Refusal :=
  .next (ldx (.mem (.zpy z)) s)

/-- 0xAE `LDX $nnnn` (R201, R172). -/
def execLdxAbs (w : Word) (s : State) : Host.Outcome State Fault Refusal :=
  .next (ldx (.mem (.abs w)) s)

/-- 0xBE `LDX $nnnn,Y` (R201, R178). -/
def execLdxAby (w : Word) (s : State) : Host.Outcome State Fault Refusal :=
  .next (ldx (.mem (.aby w)) s)

/-! ### LDY (R202) -/

/-- 0xA0 `LDY #$nn` (R202, R171). -/
def execLdyImm (imm : Byte) (s : State) : Host.Outcome State Fault Refusal :=
  .next (ldy (.imm imm) s)

/-- 0xA4 `LDY $nn` (R202, R173). -/
def execLdyZp (z : Byte) (s : State) : Host.Outcome State Fault Refusal :=
  .next (ldy (.mem (.zp z)) s)

/-- 0xB4 `LDY $nn,X` (R202, R175). -/
def execLdyZpx (z : Byte) (s : State) : Host.Outcome State Fault Refusal :=
  .next (ldy (.mem (.zpx z)) s)

/-- 0xAC `LDY $nnnn` (R202, R172). -/
def execLdyAbs (w : Word) (s : State) : Host.Outcome State Fault Refusal :=
  .next (ldy (.mem (.abs w)) s)

/-- 0xBC `LDY $nnnn,X` (R202, R177). -/
def execLdyAbx (w : Word) (s : State) : Host.Outcome State Fault Refusal :=
  .next (ldy (.mem (.abx w)) s)

/-! ### STA (R203) -/

/-- 0x85 `STA $nn` (R203, R173). -/
def execStaZp (z : Byte) (s : State) : Host.Outcome State Fault Refusal :=
  .next (sta (.zp z) s)

/-- 0x95 `STA $nn,X` (R203, R175). -/
def execStaZpx (z : Byte) (s : State) : Host.Outcome State Fault Refusal :=
  .next (sta (.zpx z) s)

/-- 0x8D `STA $nnnn` (R203, R172). -/
def execStaAbs (w : Word) (s : State) : Host.Outcome State Fault Refusal :=
  .next (sta (.abs w) s)

/-- 0x9D `STA $nnnn,X` (R203, R177). -/
def execStaAbx (w : Word) (s : State) : Host.Outcome State Fault Refusal :=
  .next (sta (.abx w) s)

/-- 0x99 `STA $nnnn,Y` (R203, R178). -/
def execStaAby (w : Word) (s : State) : Host.Outcome State Fault Refusal :=
  .next (sta (.aby w) s)

/-- 0x81 `STA ($nn,X)` (R203, R180). -/
def execStaIzx (z : Byte) (s : State) : Host.Outcome State Fault Refusal :=
  .next (sta (.izx z) s)

/-- 0x91 `STA ($nn),Y` (R203, R181). -/
def execStaIzy (z : Byte) (s : State) : Host.Outcome State Fault Refusal :=
  .next (sta (.izy z) s)

/-! ### STX (R204) -/

/-- 0x86 `STX $nn` (R204, R173). -/
def execStxZp (z : Byte) (s : State) : Host.Outcome State Fault Refusal :=
  .next (stx (.zp z) s)

/-- 0x96 `STX $nn,Y` (R204, R176). -/
def execStxZpy (z : Byte) (s : State) : Host.Outcome State Fault Refusal :=
  .next (stx (.zpy z) s)

/-- 0x8E `STX $nnnn` (R204, R172). -/
def execStxAbs (w : Word) (s : State) : Host.Outcome State Fault Refusal :=
  .next (stx (.abs w) s)

/-! ### STY (R205) -/

/-- 0x84 `STY $nn` (R205, R173). -/
def execStyZp (z : Byte) (s : State) : Host.Outcome State Fault Refusal :=
  .next (sty (.zp z) s)

/-- 0x94 `STY $nn,X` (R205, R175). -/
def execStyZpx (z : Byte) (s : State) : Host.Outcome State Fault Refusal :=
  .next (sty (.zpx z) s)

/-- 0x8C `STY $nnnn` (R205, R172). -/
def execStyAbs (w : Word) (s : State) : Host.Outcome State Fault Refusal :=
  .next (sty (.abs w) s)

/-! ### TAX (R206) -/

/-- 0xAA `TAX` (R206, R170). -/
def execTax (s : State) : Host.Outcome State Fault Refusal :=
  .next (impliedInstr (fun c => loadX c.a c) s)

/-! ### TAY (R207) -/

/-- 0xA8 `TAY` (R207, R170). -/
def execTay (s : State) : Host.Outcome State Fault Refusal :=
  .next (impliedInstr (fun c => loadY c.a c) s)

/-! ### TXA (R208) -/

/-- 0x8A `TXA` (R208, R170). -/
def execTxa (s : State) : Host.Outcome State Fault Refusal :=
  .next (impliedInstr (fun c => loadA c.x c) s)

/-! ### TYA (R209) -/

/-- 0x98 `TYA` (R209, R170). -/
def execTya (s : State) : Host.Outcome State Fault Refusal :=
  .next (impliedInstr (fun c => loadA c.y c) s)

/-! ### TSX (R210) -/

/-- 0xBA `TSX` (R210, R170). -/
def execTsx (s : State) : Host.Outcome State Fault Refusal :=
  .next (impliedInstr (fun c => loadX c.s c) s)

/-! ### TXS (R211) -/

/-- 0x9A `TXS` (R211, R170). -/
def execTxs (s : State) : Host.Outcome State Fault Refusal :=
  .next (impliedInstr (fun c => setS c.x c) s)

end Sys2Proof.Machine
end

