-- ==== Sys2Proof/Machine/ShiftRotate.lean ====
section
/-! DEFINITION. Shift and rotate (43_shift_rotate.md). One meaning per
constructor; each answers a next state (R400: no instruction faults). -/

namespace Sys2Proof.Machine

/-! ### Register effects, from the operand byte -/

/-- A shift of a memory byte: C from the shift, N and Z from the new byte (R229 to R232). -/
def shiftFn (r : Byte × Bool) (c : Cpu) : Byte × Cpu := (r.1, setNZ r.1 (setC r.2 c))

/-- A shift of the accumulator: `A <- f(A); SetNZ(A)` (R174, R229 to R232). -/
def shiftA (r : Byte × Bool) (c : Cpu) : Cpu := loadA r.1 (setC r.2 c)

/-- R229 on a memory byte. -/
def aslFn (v : Byte) (c : Cpu) : Byte × Cpu := shiftFn (aslByte v) c

/-- R230 on a memory byte. -/
def lsrFn (v : Byte) (c : Cpu) : Byte × Cpu := shiftFn (lsrByte v) c

/-- R231 on a memory byte. -/
def rolFn (v : Byte) (c : Cpu) : Byte × Cpu := shiftFn (rolByte c.c v) c

/-- R232 on a memory byte. -/
def rorFn (v : Byte) (c : Cpu) : Byte × Cpu := shiftFn (rorByte c.c v) c

/-! ### Shared by the memory forms of one mnemonic -/

/-- R229. -/
def asl (p : Place) (s : State) : State := modifyInstr aslFn p s

/-- R230. -/
def lsr (p : Place) (s : State) : State := modifyInstr lsrFn p s

/-- R231. -/
def rol (p : Place) (s : State) : State := modifyInstr rolFn p s

/-- R232. -/
def ror (p : Place) (s : State) : State := modifyInstr rorFn p s

/-! ### ASL (R229) -/

/-- 0x0A `ASL A` (R229, R174). -/
def execAslAcc (s : State) : Host.Outcome State Fault Refusal :=
  .next (impliedInstr (fun c => shiftA (aslByte c.a) c) s)

/-- 0x06 `ASL $nn` (R229, R173). -/
def execAslZp (z : Byte) (s : State) : Host.Outcome State Fault Refusal :=
  .next (asl (.zp z) s)

/-- 0x16 `ASL $nn,X` (R229, R175). -/
def execAslZpx (z : Byte) (s : State) : Host.Outcome State Fault Refusal :=
  .next (asl (.zpx z) s)

/-- 0x0E `ASL $nnnn` (R229, R172). -/
def execAslAbs (w : Word) (s : State) : Host.Outcome State Fault Refusal :=
  .next (asl (.abs w) s)

/-- 0x1E `ASL $nnnn,X` (R229, R177). -/
def execAslAbx (w : Word) (s : State) : Host.Outcome State Fault Refusal :=
  .next (asl (.abx w) s)

/-! ### LSR (R230) -/

/-- 0x4A `LSR A` (R230, R174). -/
def execLsrAcc (s : State) : Host.Outcome State Fault Refusal :=
  .next (impliedInstr (fun c => shiftA (lsrByte c.a) c) s)

/-- 0x46 `LSR $nn` (R230, R173). -/
def execLsrZp (z : Byte) (s : State) : Host.Outcome State Fault Refusal :=
  .next (lsr (.zp z) s)

/-- 0x56 `LSR $nn,X` (R230, R175). -/
def execLsrZpx (z : Byte) (s : State) : Host.Outcome State Fault Refusal :=
  .next (lsr (.zpx z) s)

/-- 0x4E `LSR $nnnn` (R230, R172). -/
def execLsrAbs (w : Word) (s : State) : Host.Outcome State Fault Refusal :=
  .next (lsr (.abs w) s)

/-- 0x5E `LSR $nnnn,X` (R230, R177). -/
def execLsrAbx (w : Word) (s : State) : Host.Outcome State Fault Refusal :=
  .next (lsr (.abx w) s)

/-! ### ROL (R231) -/

/-- 0x2A `ROL A` (R231, R174). -/
def execRolAcc (s : State) : Host.Outcome State Fault Refusal :=
  .next (impliedInstr (fun c => shiftA (rolByte c.c c.a) c) s)

/-- 0x26 `ROL $nn` (R231, R173). -/
def execRolZp (z : Byte) (s : State) : Host.Outcome State Fault Refusal :=
  .next (rol (.zp z) s)

/-- 0x36 `ROL $nn,X` (R231, R175). -/
def execRolZpx (z : Byte) (s : State) : Host.Outcome State Fault Refusal :=
  .next (rol (.zpx z) s)

/-- 0x2E `ROL $nnnn` (R231, R172). -/
def execRolAbs (w : Word) (s : State) : Host.Outcome State Fault Refusal :=
  .next (rol (.abs w) s)

/-- 0x3E `ROL $nnnn,X` (R231, R177). -/
def execRolAbx (w : Word) (s : State) : Host.Outcome State Fault Refusal :=
  .next (rol (.abx w) s)

/-! ### ROR (R232) -/

/-- 0x6A `ROR A` (R232, R174). -/
def execRorAcc (s : State) : Host.Outcome State Fault Refusal :=
  .next (impliedInstr (fun c => shiftA (rorByte c.c c.a) c) s)

/-- 0x66 `ROR $nn` (R232, R173). -/
def execRorZp (z : Byte) (s : State) : Host.Outcome State Fault Refusal :=
  .next (ror (.zp z) s)

/-- 0x76 `ROR $nn,X` (R232, R175). -/
def execRorZpx (z : Byte) (s : State) : Host.Outcome State Fault Refusal :=
  .next (ror (.zpx z) s)

/-- 0x6E `ROR $nnnn` (R232, R172). -/
def execRorAbs (w : Word) (s : State) : Host.Outcome State Fault Refusal :=
  .next (ror (.abs w) s)

/-- 0x7E `ROR $nnnn,X` (R232, R177). -/
def execRorAbx (w : Word) (s : State) : Host.Outcome State Fault Refusal :=
  .next (ror (.abx w) s)

end Sys2Proof.Machine
end

