-- ==== Sys2Proof/Machine/StackFlags.lean ====
section
/-! DEFINITION. Stack, flag and no-operation instructions (45_stack_flags_nop.md). One meaning per
constructor; each answers a next state (R400: no instruction faults). -/

namespace Sys2Proof.Machine

/-! ### PHA (R247) -/

/-- 0x48 `PHA` (R247, R170): `Rd(PC); Push(A)`. -/
def execPha (s : State) : Host.Outcome State Fault Refusal :=
  .next (push s.cpu.a (readPc s))

/-! ### PHP (R248) -/

/-- 0x08 `PHP` (R248, R170): `Rd(PC); Push(PackP(1))`. -/
def execPhp (s : State) : Host.Outcome State Fault Refusal :=
  .next (push (packP s.cpu true) (readPc s))

/-! ### PLA (R249) -/

/-- 0x68 `PLA` (R249, R170): `Rd(PC); Rd(0x0100 | S); A <- Pull(); SetNZ(A)`. -/
def execPla (s : State) : Host.Outcome State Fault Refusal :=
  let r := pull (readStack (readPc s))
  .next (onCpu (loadA r.1) r.2)

/-! ### PLP (R250) -/

/-- 0x28 `PLP` (R250, R170): `Rd(PC); Rd(0x0100 | S); UnpackP(Pull())`. -/
def execPlp (s : State) : Host.Outcome State Fault Refusal :=
  let r := pull (readStack (readPc s))
  .next (onCpu (unpackP r.1) r.2)

/-! ### CLC (R251) -/

/-- 0x18 `CLC` (R251, R170). -/
def execClc (s : State) : Host.Outcome State Fault Refusal :=
  .next (impliedInstr (setC false) s)

/-! ### SEC (R252) -/

/-- 0x38 `SEC` (R252, R170). -/
def execSec (s : State) : Host.Outcome State Fault Refusal :=
  .next (impliedInstr (setC true) s)

/-! ### CLI (R253) -/

/-- 0x58 `CLI` (R253, R170). -/
def execCli (s : State) : Host.Outcome State Fault Refusal :=
  .next (impliedInstr (setI false) s)

/-! ### SEI (R254) -/

/-- 0x78 `SEI` (R254, R170). -/
def execSei (s : State) : Host.Outcome State Fault Refusal :=
  .next (impliedInstr (setI true) s)

/-! ### CLD (R255) -/

/-- 0xD8 `CLD` (R255, R170). -/
def execCld (s : State) : Host.Outcome State Fault Refusal :=
  .next (impliedInstr (setD false) s)

/-! ### SED (R256) -/

/-- 0xF8 `SED` (R256, R170). -/
def execSed (s : State) : Host.Outcome State Fault Refusal :=
  .next (impliedInstr (setD true) s)

/-! ### CLV (R257) -/

/-- 0xB8 `CLV` (R257, R170). -/
def execClv (s : State) : Host.Outcome State Fault Refusal :=
  .next (impliedInstr (setV false) s)

/-! ### NOP (R258) -/

/-- 0xEA `NOP` (R258, R170). -/
def execNop (s : State) : Host.Outcome State Fault Refusal :=
  .next (readPc s)

end Sys2Proof.Machine
end

