-- ==== Sys2Proof/Machine/Unofficial.lean ====
section
/-! DEFINITION. The unofficial opcodes (46_unofficial.md): all 105, the twelve that halt the processor included. One meaning per
constructor; each answers a next state (R400: no instruction faults). -/

namespace Sys2Proof.Machine

/-! ### Register effects, from the operand byte -/

/-- R260: ASL of the byte, then `A <- A | new; SetNZ(A)`. -/
def sloFn (v : Byte) (c : Cpu) : Byte × Cpu :=
  let r := aslByte v
  (r.1, loadA (c.a ||| r.1) (setC r.2 c))

/-- R261: ROL of the byte, then `A <- A & new; SetNZ(A)`. -/
def rlaFn (v : Byte) (c : Cpu) : Byte × Cpu :=
  let r := rolByte c.c v
  (r.1, loadA (c.a &&& r.1) (setC r.2 c))

/-- R262: LSR of the byte, then `A <- A ^ new; SetNZ(A)`. -/
def sreFn (v : Byte) (c : Cpu) : Byte × Cpu :=
  let r := lsrByte v
  (r.1, loadA (c.a ^^^ r.1) (setC r.2 c))

/-- R263: ROR of the byte, then ADC with the carry that the rotate just produced. -/
def rraFn (v : Byte) (c : Cpu) : Byte × Cpu :=
  let r := rorByte c.c v
  (r.1, addToA r.1 (setC r.2 c))

/-- R266: `u8(v - 1)`, then `Compare(A, new)`. -/
def dcpFn (v : Byte) (c : Cpu) : Byte × Cpu := (v - 1, compareFlags c.a (v - 1) c)

/-- R267: `u8(v + 1)`, then SBC of it. -/
def iscFn (v : Byte) (c : Cpu) : Byte × Cpu := (v + 1, subtractFromA (v + 1) c)

/-- R265: `A <- M; X <- M; SetNZ(M)`. -/
def laxFn (m : Byte) (c : Cpu) : Cpu := loadX m { c with a := m }

/-- R268: `A <- A & M; SetNZ(A); C <- N`. -/
def ancFn (m : Byte) (c : Cpu) : Cpu := setC ((c.a &&& m).getLsbD 7) (loadA (c.a &&& m) c)

/-- R269: `t <- A & M; C <- t[0]; A <- t >> 1; SetNZ(A)`. -/
def alrFn (m : Byte) (c : Cpu) : Cpu := shiftA (lsrByte (c.a &&& m)) c

/-- R270: `A <- ((A & M) >> 1) | (C << 7); SetNZ(A); C <- A[6]; V <- A[6] ^ A[5]`. -/
def arrFn (m : Byte) (c : Cpu) : Cpu :=
  let r := (rorByte c.c (c.a &&& m)).1
  setV (xor (r.getLsbD 6) (r.getLsbD 5)) (setC (r.getLsbD 6) (loadA r c))

/-- R271: `t <- A & X; C <- t >= M; X <- u8(t - M); SetNZ(X)`. -/
def axsFn (m : Byte) (c : Cpu) : Cpu :=
  let t := c.a &&& c.x
  setC (decide (m.toNat ≤ t.toNat)) (loadX (t - m) c)

/-- R274: `A <- (A | MAGIC_ANE) & X & M; SetNZ(A)`. -/
def aneFn (magic m : Byte) (c : Cpu) : Cpu := loadA ((c.a ||| magic) &&& c.x &&& m) c

/-- R275: `A <- (A | MAGIC_LXA) & M; X <- A; SetNZ(A)`. -/
def lxaFn (magic m : Byte) (c : Cpu) : Cpu := laxFn ((c.a ||| magic) &&& m) c

/-- R280: `t <- M & S; A <- t; X <- t; S <- t; SetNZ(t)`. -/
def lasFn (m : Byte) (c : Cpu) : Cpu := laxFn (m &&& c.s) (setS (m &&& c.s) c)

/-- R273: the value read is discarded. -/
def nopFn (_ : Byte) (c : Cpu) : Cpu := c

/-- R281: `jammed <- 1`. -/
def jamFn (c : Cpu) : Cpu := { c with jammed := true }

/-- The byte that SAX stores and SHA and TAS form theirs from: `A & X` (R264, R276, R279). -/
def andAX (c : Cpu) : Byte := c.a &&& c.x

/-! ### Shared by the forms of one mnemonic -/

/-- R260. -/
def slo (p : Place) (s : State) : State := modifyInstr sloFn p s

/-- R261. -/
def rla (p : Place) (s : State) : State := modifyInstr rlaFn p s

/-- R262. -/
def sre (p : Place) (s : State) : State := modifyInstr sreFn p s

/-- R263. -/
def rra (p : Place) (s : State) : State := modifyInstr rraFn p s

/-- R266. -/
def dcp (p : Place) (s : State) : State := modifyInstr dcpFn p s

/-- R267. -/
def isc (p : Place) (s : State) : State := modifyInstr iscFn p s

/-- R264: `WriteOperand(mode, A & X)`. -/
def sax (p : Place) (s : State) : State := storeInstr andAX p s

/-- R265. -/
def lax (o : Source) (s : State) : State := readInstr laxFn o s

/-- R268. -/
def anc (imm : Byte) (s : State) : State := readInstr ancFn (.imm imm) s

/-- R273, the immediate and memory forms: the reads happen, the value is discarded. -/
def nopRead (o : Source) (s : State) : State := readInstr nopFn o s

/-- R276: `StoreHigh(mode, A & X)`. -/
def sha (p : Place) (s : State) : State := storeHigh p (andAX s.cpu) s

/-- R279: `S <- A & X; StoreHigh(mode, S)`. -/
def tas (p : Place) (s : State) : State := storeHigh p (andAX s.cpu) (onCpu (setS (andAX s.cpu)) s)

/-- R281: `Rd(PC); jammed <- 1`. -/
def jam (s : State) : State := impliedInstr jamFn s

/-! ### SLO (R260) -/

/-- 0x07 `SLO $nn` (R260, R173). -/
def execSloZp (z : Byte) (s : State) : Host.Outcome State Fault Refusal :=
  .next (slo (.zp z) s)

/-- 0x17 `SLO $nn,X` (R260, R175). -/
def execSloZpx (z : Byte) (s : State) : Host.Outcome State Fault Refusal :=
  .next (slo (.zpx z) s)

/-- 0x0F `SLO $nnnn` (R260, R172). -/
def execSloAbs (w : Word) (s : State) : Host.Outcome State Fault Refusal :=
  .next (slo (.abs w) s)

/-- 0x1F `SLO $nnnn,X` (R260, R177). -/
def execSloAbx (w : Word) (s : State) : Host.Outcome State Fault Refusal :=
  .next (slo (.abx w) s)

/-- 0x1B `SLO $nnnn,Y` (R260, R178). -/
def execSloAby (w : Word) (s : State) : Host.Outcome State Fault Refusal :=
  .next (slo (.aby w) s)

/-- 0x03 `SLO ($nn,X)` (R260, R180). -/
def execSloIzx (z : Byte) (s : State) : Host.Outcome State Fault Refusal :=
  .next (slo (.izx z) s)

/-- 0x13 `SLO ($nn),Y` (R260, R181). -/
def execSloIzy (z : Byte) (s : State) : Host.Outcome State Fault Refusal :=
  .next (slo (.izy z) s)

/-! ### RLA (R261) -/

/-- 0x27 `RLA $nn` (R261, R173). -/
def execRlaZp (z : Byte) (s : State) : Host.Outcome State Fault Refusal :=
  .next (rla (.zp z) s)

/-- 0x37 `RLA $nn,X` (R261, R175). -/
def execRlaZpx (z : Byte) (s : State) : Host.Outcome State Fault Refusal :=
  .next (rla (.zpx z) s)

/-- 0x2F `RLA $nnnn` (R261, R172). -/
def execRlaAbs (w : Word) (s : State) : Host.Outcome State Fault Refusal :=
  .next (rla (.abs w) s)

/-- 0x3F `RLA $nnnn,X` (R261, R177). -/
def execRlaAbx (w : Word) (s : State) : Host.Outcome State Fault Refusal :=
  .next (rla (.abx w) s)

/-- 0x3B `RLA $nnnn,Y` (R261, R178). -/
def execRlaAby (w : Word) (s : State) : Host.Outcome State Fault Refusal :=
  .next (rla (.aby w) s)

/-- 0x23 `RLA ($nn,X)` (R261, R180). -/
def execRlaIzx (z : Byte) (s : State) : Host.Outcome State Fault Refusal :=
  .next (rla (.izx z) s)

/-- 0x33 `RLA ($nn),Y` (R261, R181). -/
def execRlaIzy (z : Byte) (s : State) : Host.Outcome State Fault Refusal :=
  .next (rla (.izy z) s)

/-! ### SRE (R262) -/

/-- 0x47 `SRE $nn` (R262, R173). -/
def execSreZp (z : Byte) (s : State) : Host.Outcome State Fault Refusal :=
  .next (sre (.zp z) s)

/-- 0x57 `SRE $nn,X` (R262, R175). -/
def execSreZpx (z : Byte) (s : State) : Host.Outcome State Fault Refusal :=
  .next (sre (.zpx z) s)

/-- 0x4F `SRE $nnnn` (R262, R172). -/
def execSreAbs (w : Word) (s : State) : Host.Outcome State Fault Refusal :=
  .next (sre (.abs w) s)

/-- 0x5F `SRE $nnnn,X` (R262, R177). -/
def execSreAbx (w : Word) (s : State) : Host.Outcome State Fault Refusal :=
  .next (sre (.abx w) s)

/-- 0x5B `SRE $nnnn,Y` (R262, R178). -/
def execSreAby (w : Word) (s : State) : Host.Outcome State Fault Refusal :=
  .next (sre (.aby w) s)

/-- 0x43 `SRE ($nn,X)` (R262, R180). -/
def execSreIzx (z : Byte) (s : State) : Host.Outcome State Fault Refusal :=
  .next (sre (.izx z) s)

/-- 0x53 `SRE ($nn),Y` (R262, R181). -/
def execSreIzy (z : Byte) (s : State) : Host.Outcome State Fault Refusal :=
  .next (sre (.izy z) s)

/-! ### RRA (R263) -/

/-- 0x67 `RRA $nn` (R263, R173). -/
def execRraZp (z : Byte) (s : State) : Host.Outcome State Fault Refusal :=
  .next (rra (.zp z) s)

/-- 0x77 `RRA $nn,X` (R263, R175). -/
def execRraZpx (z : Byte) (s : State) : Host.Outcome State Fault Refusal :=
  .next (rra (.zpx z) s)

/-- 0x6F `RRA $nnnn` (R263, R172). -/
def execRraAbs (w : Word) (s : State) : Host.Outcome State Fault Refusal :=
  .next (rra (.abs w) s)

/-- 0x7F `RRA $nnnn,X` (R263, R177). -/
def execRraAbx (w : Word) (s : State) : Host.Outcome State Fault Refusal :=
  .next (rra (.abx w) s)

/-- 0x7B `RRA $nnnn,Y` (R263, R178). -/
def execRraAby (w : Word) (s : State) : Host.Outcome State Fault Refusal :=
  .next (rra (.aby w) s)

/-- 0x63 `RRA ($nn,X)` (R263, R180). -/
def execRraIzx (z : Byte) (s : State) : Host.Outcome State Fault Refusal :=
  .next (rra (.izx z) s)

/-- 0x73 `RRA ($nn),Y` (R263, R181). -/
def execRraIzy (z : Byte) (s : State) : Host.Outcome State Fault Refusal :=
  .next (rra (.izy z) s)

/-! ### SAX (R264) -/

/-- 0x87 `SAX $nn` (R264, R173). -/
def execSaxZp (z : Byte) (s : State) : Host.Outcome State Fault Refusal :=
  .next (sax (.zp z) s)

/-- 0x97 `SAX $nn,Y` (R264, R176). -/
def execSaxZpy (z : Byte) (s : State) : Host.Outcome State Fault Refusal :=
  .next (sax (.zpy z) s)

/-- 0x8F `SAX $nnnn` (R264, R172). -/
def execSaxAbs (w : Word) (s : State) : Host.Outcome State Fault Refusal :=
  .next (sax (.abs w) s)

/-- 0x83 `SAX ($nn,X)` (R264, R180). -/
def execSaxIzx (z : Byte) (s : State) : Host.Outcome State Fault Refusal :=
  .next (sax (.izx z) s)

/-! ### LAX (R265) -/

/-- 0xA7 `LAX $nn` (R265, R173). -/
def execLaxZp (z : Byte) (s : State) : Host.Outcome State Fault Refusal :=
  .next (lax (.mem (.zp z)) s)

/-- 0xB7 `LAX $nn,Y` (R265, R176). -/
def execLaxZpy (z : Byte) (s : State) : Host.Outcome State Fault Refusal :=
  .next (lax (.mem (.zpy z)) s)

/-- 0xAF `LAX $nnnn` (R265, R172). -/
def execLaxAbs (w : Word) (s : State) : Host.Outcome State Fault Refusal :=
  .next (lax (.mem (.abs w)) s)

/-- 0xBF `LAX $nnnn,Y` (R265, R178). -/
def execLaxAby (w : Word) (s : State) : Host.Outcome State Fault Refusal :=
  .next (lax (.mem (.aby w)) s)

/-- 0xA3 `LAX ($nn,X)` (R265, R180). -/
def execLaxIzx (z : Byte) (s : State) : Host.Outcome State Fault Refusal :=
  .next (lax (.mem (.izx z)) s)

/-- 0xB3 `LAX ($nn),Y` (R265, R181). -/
def execLaxIzy (z : Byte) (s : State) : Host.Outcome State Fault Refusal :=
  .next (lax (.mem (.izy z)) s)

/-! ### DCP (R266) -/

/-- 0xC7 `DCP $nn` (R266, R173). -/
def execDcpZp (z : Byte) (s : State) : Host.Outcome State Fault Refusal :=
  .next (dcp (.zp z) s)

/-- 0xD7 `DCP $nn,X` (R266, R175). -/
def execDcpZpx (z : Byte) (s : State) : Host.Outcome State Fault Refusal :=
  .next (dcp (.zpx z) s)

/-- 0xCF `DCP $nnnn` (R266, R172). -/
def execDcpAbs (w : Word) (s : State) : Host.Outcome State Fault Refusal :=
  .next (dcp (.abs w) s)

/-- 0xDF `DCP $nnnn,X` (R266, R177). -/
def execDcpAbx (w : Word) (s : State) : Host.Outcome State Fault Refusal :=
  .next (dcp (.abx w) s)

/-- 0xDB `DCP $nnnn,Y` (R266, R178). -/
def execDcpAby (w : Word) (s : State) : Host.Outcome State Fault Refusal :=
  .next (dcp (.aby w) s)

/-- 0xC3 `DCP ($nn,X)` (R266, R180). -/
def execDcpIzx (z : Byte) (s : State) : Host.Outcome State Fault Refusal :=
  .next (dcp (.izx z) s)

/-- 0xD3 `DCP ($nn),Y` (R266, R181). -/
def execDcpIzy (z : Byte) (s : State) : Host.Outcome State Fault Refusal :=
  .next (dcp (.izy z) s)

/-! ### ISC (R267) -/

/-- 0xE7 `ISC $nn` (R267, R173). -/
def execIscZp (z : Byte) (s : State) : Host.Outcome State Fault Refusal :=
  .next (isc (.zp z) s)

/-- 0xF7 `ISC $nn,X` (R267, R175). -/
def execIscZpx (z : Byte) (s : State) : Host.Outcome State Fault Refusal :=
  .next (isc (.zpx z) s)

/-- 0xEF `ISC $nnnn` (R267, R172). -/
def execIscAbs (w : Word) (s : State) : Host.Outcome State Fault Refusal :=
  .next (isc (.abs w) s)

/-- 0xFF `ISC $nnnn,X` (R267, R177). -/
def execIscAbx (w : Word) (s : State) : Host.Outcome State Fault Refusal :=
  .next (isc (.abx w) s)

/-- 0xFB `ISC $nnnn,Y` (R267, R178). -/
def execIscAby (w : Word) (s : State) : Host.Outcome State Fault Refusal :=
  .next (isc (.aby w) s)

/-- 0xE3 `ISC ($nn,X)` (R267, R180). -/
def execIscIzx (z : Byte) (s : State) : Host.Outcome State Fault Refusal :=
  .next (isc (.izx z) s)

/-- 0xF3 `ISC ($nn),Y` (R267, R181). -/
def execIscIzy (z : Byte) (s : State) : Host.Outcome State Fault Refusal :=
  .next (isc (.izy z) s)

/-! ### ANC (R268) -/

/-- 0x0B `ANC #$nn` (R268, R171). -/
def execAncImm0B (imm : Byte) (s : State) : Host.Outcome State Fault Refusal :=
  .next (anc imm s)

/-- 0x2B `ANC #$nn` (R268, R171). -/
def execAncImm2B (imm : Byte) (s : State) : Host.Outcome State Fault Refusal :=
  .next (anc imm s)

/-! ### ALR (R269) -/

/-- 0x4B `ALR #$nn` (R269, R171). -/
def execAlrImm (imm : Byte) (s : State) : Host.Outcome State Fault Refusal :=
  .next (readInstr alrFn (.imm imm) s)

/-! ### ARR (R270) -/

/-- 0x6B `ARR #$nn` (R270, R171). -/
def execArrImm (imm : Byte) (s : State) : Host.Outcome State Fault Refusal :=
  .next (readInstr arrFn (.imm imm) s)

/-! ### AXS (R271) -/

/-- 0xCB `AXS #$nn` (R271, R171). -/
def execAxsImm (imm : Byte) (s : State) : Host.Outcome State Fault Refusal :=
  .next (readInstr axsFn (.imm imm) s)

/-! ### SBC (R272) -/

/-- 0xEB `SBC #$nn` (R272, R171). -/
def execSbcImmEB (imm : Byte) (s : State) : Host.Outcome State Fault Refusal :=
  .next (sbc (.imm imm) s)

/-! ### NOP (R273) -/

/-- 0x1A `NOP` (R273, R170). -/
def execNopImp1A (s : State) : Host.Outcome State Fault Refusal :=
  .next (readPc s)

/-- 0x3A `NOP` (R273, R170). -/
def execNopImp3A (s : State) : Host.Outcome State Fault Refusal :=
  .next (readPc s)

/-- 0x5A `NOP` (R273, R170). -/
def execNopImp5A (s : State) : Host.Outcome State Fault Refusal :=
  .next (readPc s)

/-- 0x7A `NOP` (R273, R170). -/
def execNopImp7A (s : State) : Host.Outcome State Fault Refusal :=
  .next (readPc s)

/-- 0xDA `NOP` (R273, R170). -/
def execNopImpDA (s : State) : Host.Outcome State Fault Refusal :=
  .next (readPc s)

/-- 0xFA `NOP` (R273, R170). -/
def execNopImpFA (s : State) : Host.Outcome State Fault Refusal :=
  .next (readPc s)

/-- 0x80 `NOP #$nn` (R273, R171). -/
def execNopImm80 (imm : Byte) (s : State) : Host.Outcome State Fault Refusal :=
  .next (nopRead (.imm imm) s)

/-- 0x82 `NOP #$nn` (R273, R171). -/
def execNopImm82 (imm : Byte) (s : State) : Host.Outcome State Fault Refusal :=
  .next (nopRead (.imm imm) s)

/-- 0x89 `NOP #$nn` (R273, R171). -/
def execNopImm89 (imm : Byte) (s : State) : Host.Outcome State Fault Refusal :=
  .next (nopRead (.imm imm) s)

/-- 0xC2 `NOP #$nn` (R273, R171). -/
def execNopImmC2 (imm : Byte) (s : State) : Host.Outcome State Fault Refusal :=
  .next (nopRead (.imm imm) s)

/-- 0xE2 `NOP #$nn` (R273, R171). -/
def execNopImmE2 (imm : Byte) (s : State) : Host.Outcome State Fault Refusal :=
  .next (nopRead (.imm imm) s)

/-- 0x04 `NOP $nn` (R273, R173). -/
def execNopZp04 (z : Byte) (s : State) : Host.Outcome State Fault Refusal :=
  .next (nopRead (.mem (.zp z)) s)

/-- 0x44 `NOP $nn` (R273, R173). -/
def execNopZp44 (z : Byte) (s : State) : Host.Outcome State Fault Refusal :=
  .next (nopRead (.mem (.zp z)) s)

/-- 0x64 `NOP $nn` (R273, R173). -/
def execNopZp64 (z : Byte) (s : State) : Host.Outcome State Fault Refusal :=
  .next (nopRead (.mem (.zp z)) s)

/-- 0x14 `NOP $nn,X` (R273, R175). -/
def execNopZpx14 (z : Byte) (s : State) : Host.Outcome State Fault Refusal :=
  .next (nopRead (.mem (.zpx z)) s)

/-- 0x34 `NOP $nn,X` (R273, R175). -/
def execNopZpx34 (z : Byte) (s : State) : Host.Outcome State Fault Refusal :=
  .next (nopRead (.mem (.zpx z)) s)

/-- 0x54 `NOP $nn,X` (R273, R175). -/
def execNopZpx54 (z : Byte) (s : State) : Host.Outcome State Fault Refusal :=
  .next (nopRead (.mem (.zpx z)) s)

/-- 0x74 `NOP $nn,X` (R273, R175). -/
def execNopZpx74 (z : Byte) (s : State) : Host.Outcome State Fault Refusal :=
  .next (nopRead (.mem (.zpx z)) s)

/-- 0xD4 `NOP $nn,X` (R273, R175). -/
def execNopZpxD4 (z : Byte) (s : State) : Host.Outcome State Fault Refusal :=
  .next (nopRead (.mem (.zpx z)) s)

/-- 0xF4 `NOP $nn,X` (R273, R175). -/
def execNopZpxF4 (z : Byte) (s : State) : Host.Outcome State Fault Refusal :=
  .next (nopRead (.mem (.zpx z)) s)

/-- 0x0C `NOP $nnnn` (R273, R172). -/
def execNopAbs0C (w : Word) (s : State) : Host.Outcome State Fault Refusal :=
  .next (nopRead (.mem (.abs w)) s)

/-- 0x1C `NOP $nnnn,X` (R273, R177). -/
def execNopAbx1C (w : Word) (s : State) : Host.Outcome State Fault Refusal :=
  .next (nopRead (.mem (.abx w)) s)

/-- 0x3C `NOP $nnnn,X` (R273, R177). -/
def execNopAbx3C (w : Word) (s : State) : Host.Outcome State Fault Refusal :=
  .next (nopRead (.mem (.abx w)) s)

/-- 0x5C `NOP $nnnn,X` (R273, R177). -/
def execNopAbx5C (w : Word) (s : State) : Host.Outcome State Fault Refusal :=
  .next (nopRead (.mem (.abx w)) s)

/-- 0x7C `NOP $nnnn,X` (R273, R177). -/
def execNopAbx7C (w : Word) (s : State) : Host.Outcome State Fault Refusal :=
  .next (nopRead (.mem (.abx w)) s)

/-- 0xDC `NOP $nnnn,X` (R273, R177). -/
def execNopAbxDC (w : Word) (s : State) : Host.Outcome State Fault Refusal :=
  .next (nopRead (.mem (.abx w)) s)

/-- 0xFC `NOP $nnnn,X` (R273, R177). -/
def execNopAbxFC (w : Word) (s : State) : Host.Outcome State Fault Refusal :=
  .next (nopRead (.mem (.abx w)) s)

/-! ### ANE (R274) -/

/-- 0x8B `ANE #$nn` (R274, R171). -/
def execAneImm (imm : Byte) (s : State) : Host.Outcome State Fault Refusal :=
  .next (readInstr (aneFn s.chip.magicAne) (.imm imm) s)

/-! ### LXA (R275) -/

/-- 0xAB `LXA #$nn` (R275, R171). -/
def execLxaImm (imm : Byte) (s : State) : Host.Outcome State Fault Refusal :=
  .next (readInstr (lxaFn s.chip.magicLxa) (.imm imm) s)

/-! ### SHA (R276) -/

/-- 0x9F `SHA $nnnn,Y` (R276, R178). -/
def execShaAby (w : Word) (s : State) : Host.Outcome State Fault Refusal :=
  .next (sha (.aby w) s)

/-- 0x93 `SHA ($nn),Y` (R276, R181). -/
def execShaIzy (z : Byte) (s : State) : Host.Outcome State Fault Refusal :=
  .next (sha (.izy z) s)

/-! ### SHX (R277) -/

/-- 0x9E `SHX $nnnn,Y` (R277, R178). -/
def execShxAby (w : Word) (s : State) : Host.Outcome State Fault Refusal :=
  .next (storeHigh (.aby w) s.cpu.x s)

/-! ### SHY (R278) -/

/-- 0x9C `SHY $nnnn,X` (R278, R177). -/
def execShyAbx (w : Word) (s : State) : Host.Outcome State Fault Refusal :=
  .next (storeHigh (.abx w) s.cpu.y s)

/-! ### TAS (R279) -/

/-- 0x9B `TAS $nnnn,Y` (R279, R178). -/
def execTasAby (w : Word) (s : State) : Host.Outcome State Fault Refusal :=
  .next (tas (.aby w) s)

/-! ### LAS (R280) -/

/-- 0xBB `LAS $nnnn,Y` (R280, R178). -/
def execLasAby (w : Word) (s : State) : Host.Outcome State Fault Refusal :=
  .next (readInstr lasFn (.mem (.aby w)) s)

/-! ### JAM (R281) -/

/-- 0x02 `JAM` (R281, R170). -/
def execJam02 (s : State) : Host.Outcome State Fault Refusal :=
  .next (jam s)

/-- 0x12 `JAM` (R281, R170). -/
def execJam12 (s : State) : Host.Outcome State Fault Refusal :=
  .next (jam s)

/-- 0x22 `JAM` (R281, R170). -/
def execJam22 (s : State) : Host.Outcome State Fault Refusal :=
  .next (jam s)

/-- 0x32 `JAM` (R281, R170). -/
def execJam32 (s : State) : Host.Outcome State Fault Refusal :=
  .next (jam s)

/-- 0x42 `JAM` (R281, R170). -/
def execJam42 (s : State) : Host.Outcome State Fault Refusal :=
  .next (jam s)

/-- 0x52 `JAM` (R281, R170). -/
def execJam52 (s : State) : Host.Outcome State Fault Refusal :=
  .next (jam s)

/-- 0x62 `JAM` (R281, R170). -/
def execJam62 (s : State) : Host.Outcome State Fault Refusal :=
  .next (jam s)

/-- 0x72 `JAM` (R281, R170). -/
def execJam72 (s : State) : Host.Outcome State Fault Refusal :=
  .next (jam s)

/-- 0x92 `JAM` (R281, R170). -/
def execJam92 (s : State) : Host.Outcome State Fault Refusal :=
  .next (jam s)

/-- 0xB2 `JAM` (R281, R170). -/
def execJamB2 (s : State) : Host.Outcome State Fault Refusal :=
  .next (jam s)

/-- 0xD2 `JAM` (R281, R170). -/
def execJamD2 (s : State) : Host.Outcome State Fault Refusal :=
  .next (jam s)

/-- 0xF2 `JAM` (R281, R170). -/
def execJamF2 (s : State) : Host.Outcome State Fault Refusal :=
  .next (jam s)

end Sys2Proof.Machine
end

