-- ==== Sys2Proof/Machine/Instruction.lean ====
section
/-! DEFINITION. One instruction (60_exceptions.md R404): fetching an instruction's bytes, the choice at the boundary, the
attached object-memory DMA, and the return to the boundary. Step.lean only calls it. -/

namespace Sys2Proof.Machine

/-! ### Fetching an instruction (R140, R142, R170 to R173) -/

/-- The opcode of JSR, whose high target byte is read after its pushes (R235). -/
def opJsr : Byte := 0x20

/-- The byte that cycle 6 of a JSR will read, from the state after its cycle 2: the byte at PC after the dummy stack
read and the two pushes (R235; "a JSR whose third byte lies in the stack page being written sees the pushed value").
`exec` performs those cycles; here they only tell which instruction it is (log 6). -/
def jsrHighByte (s : State) : Byte :=
  let t := pushWord s.cpu.pc (readStack s)
  (rd t t.cpu.pc).1

/-- The cycles that fetch an instruction: the opcode and its operand bytes, PC after the last of them; for JSR the
opcode and the low byte, PC at the third byte (R140, R235, log 6). -/
def fetchInstr (s : State) : Instr × State :=
  let op := fetch s
  match lengthOf op.1 with
  | 1 => (decodeBytes op.1 0x00 0x00, op.2)
  | 2 =>
    let b := fetch op.2
    (decodeBytes op.1 b.1 0x00, b.2)
  | _ =>
    let lo := fetch op.2
    if op.1 = opJsr then (decodeBytes op.1 lo.1 (jsrHighByte lo.2), lo.2)
    else
      let hi := fetch lo.2
      (decodeBytes op.1 lo.1 hi.1, hi.2)

/-! ### The boundary -/

/-- What a step call does at an instruction boundary (R404, R405). -/
inductive Choice where
  | jammed
  | nmi
  | irq
  | instruction
  deriving DecidableEq, Repr

/-- The choice of R404: NMI before IRQ (R405), the line honoured only while `I` is clear. -/
def boundaryChoice (s : State) : Choice :=
  if s.cpu.jammed then .jammed
  else if s.cpu.nmiPending then .nmi
  else if irqLine s && !s.cpu.i then .irq
  else .instruction

/-- `tick <- 0`, the scratch cells dead (R404, R40; log 7, log 8). -/
def endStep (s : State) : State := onCpu (fun c => { c with tick := 0, micro := .idle }) s

/-- `if dma_page is not empty: OamDma()` (R404, R108). -/
def attachedDma (s : State) : State :=
  match s.cpu.dmaPage with
  | some page => oamDma page s
  | none => s

/-- Carries a next state on, leaves a stop as it is. -/
def mapNext (f : State → State) : Host.Outcome State Fault Refusal → Host.Outcome State Fault Refusal
  | .next s => .next (f s)
  | .fault r => .fault r
  | .refused r => .refused r

/-- Fetch, execute, and the attached DMA (R404, last arm). -/
def runInstr (s : State) : Host.Outcome State Fault Refusal :=
  let f := fetchInstr s
  mapNext attachedDma (exec f.1 f.2)

/-- NMI service: `nmi_pending <- 0; Interrupt(0xFFFA)` (R404, R411). -/
def serveNmi (s : State) : State := interrupt vecNmi (onCpu (fun c => { c with nmiPending := false }) s)

/-- IRQ service: `Interrupt(0xFFFE)`, no source cleared (R404, R412). -/
def serveIrq (s : State) : State := interrupt vecIrq s

/-- `StepInstruction()` (R404, R623): exactly one of the four. -/
def stepInstruction (s : State) : Host.Outcome State Fault Refusal :=
  let s := endStep s
  mapNext endStep
    (match boundaryChoice s with
    | .jammed => .next (jammedStep s)
    | .nmi => .next (serveNmi s)
    | .irq => .next (serveIrq s)
    | .instruction => runInstr s)

/-! ### Placing an instruction at the program counter -/

/-- PC and the two bytes after it lie in internal RAM, outside the stack page, where neither a JSR's pushes nor a unit of
the machine touches them. -/
def fetchesFromRam (pc : Word) : Bool :=
  decide (pc.toNat + 2 ≤ 0x1FFF) &&
    (decide (pc.toNat % 0x800 + 2 < 0x100) || decide (0x200 ≤ pc.toNat % 0x800 ∧ pc.toNat % 0x800 + 2 < 0x800))

/-- The machine with three bytes where its next step fetches (log 12): in RAM at PC, or, where PC lies outside RAM, at
0x0000 with PC moved there. What would keep the step from fetching is taken away: a jam, a waiting NMI, and an
unmasked IRQ (by setting `I`, and only then). -/
def placeBytes (s : State) (b0 b1 b2 : Byte) : State :=
  let pc := if fetchesFromRam s.cpu.pc then s.cpu.pc else 0x0000
  { s with
    cpu := { s.cpu with pc := pc, jammed := false, nmiPending := false, i := s.cpu.i || irqLine s }
    ram := Cells.writeList s.ram (ramIndex pc) [b0, b1, b2] }

end Sys2Proof.Machine
end

