-- ==== Sys2Proof/Machine/Step.lean ====
section
/-! DEFINITION. The step of the machine: `StepInstruction()` (64_system_step_and_host.md R620, R623). -/

namespace Sys2Proof.Machine

/-- One step: one instruction, one interrupt sequence, or one jammed cycle (R404). It always answers a next state
(R641). -/
def step (s : State) : Host.Outcome State Fault Refusal := stepInstruction s

/-- The state in which the very next step fetches and runs the instruction whose opcode-table bits are `w` (log 12). -/
def State.withFetchWord (s : State) (nbits w : Nat) : State :=
  placeBytes s (tableByte nbits w 0) (tableByte nbits w 1) (tableByte nbits w 2)

end Sys2Proof.Machine
end

