-- ==== Sys2Proof/Machine/Cycle.lean ====
section
/-! DEFINITION. `StepCycle()` (64_system_step_and_host.md R621): the source's "explicit resumable state machine (current
instruction, current micro-step index)". One call performs the next bus cycle of the step in progress, from the
scratch cells of R40; `tick` is the micro-step index. The register effects are those of the meanings. -/

namespace Sys2Proof.Machine

/-! ### The cycle list of an instruction, as data of its opcode -/

/-- The memory addressing modes (R172 to R181). -/
inductive Mode where
  | zp
  | zpx
  | zpy
  | abs
  | abx
  | aby
  | izx
  | izy
  deriving DecidableEq, Repr

/-- What an opcode makes of its cycles: one constructor per cycle list of 40_addressing_modes.md and
44_control_flow.md, with the register effect of the instruction. -/
inductive Plan where
  | implied (f : Cpu → Cpu)
  | immediate (f : Byte → Cpu → Cpu)
  | read (m : Mode) (f : Byte → Cpu → Cpu)
  | store (m : Mode) (f : Cpu → Byte)
  | modify (m : Mode) (f : Byte → Cpu → Byte × Cpu)
  | storeHigh (m : Mode) (r : Cpu → Byte) (g : Cpu → Cpu)
  | branch (cond : Cpu → Bool)
  | jmpAbs
  | jmpInd
  | jsr
  | rts
  | brk
  | rti
  | push (f : Cpu → Byte)
  | pull (f : Byte → Cpu → Cpu)

/-- The plan of an instruction; its operand plays no part. -/
def planOf (chip : ChipParams) (i : Instr) : Plan :=
  match i with
  | .ldaImm _ => .immediate loadA
  | .ldaZp _ => .read .zp loadA
  | .ldaZpx _ => .read .zpx loadA
  | .ldaAbs _ => .read .abs loadA
  | .ldaAbx _ => .read .abx loadA
  | .ldaAby _ => .read .aby loadA
  | .ldaIzx _ => .read .izx loadA
  | .ldaIzy _ => .read .izy loadA
  | .ldxImm _ => .immediate loadX
  | .ldxZp _ => .read .zp loadX
  | .ldxZpy _ => .read .zpy loadX
  | .ldxAbs _ => .read .abs loadX
  | .ldxAby _ => .read .aby loadX
  | .ldyImm _ => .immediate loadY
  | .ldyZp _ => .read .zp loadY
  | .ldyZpx _ => .read .zpx loadY
  | .ldyAbs _ => .read .abs loadY
  | .ldyAbx _ => .read .abx loadY
  | .staZp _ => .store .zp (fun c => c.a)
  | .staZpx _ => .store .zpx (fun c => c.a)
  | .staAbs _ => .store .abs (fun c => c.a)
  | .staAbx _ => .store .abx (fun c => c.a)
  | .staAby _ => .store .aby (fun c => c.a)
  | .staIzx _ => .store .izx (fun c => c.a)
  | .staIzy _ => .store .izy (fun c => c.a)
  | .stxZp _ => .store .zp (fun c => c.x)
  | .stxZpy _ => .store .zpy (fun c => c.x)
  | .stxAbs _ => .store .abs (fun c => c.x)
  | .styZp _ => .store .zp (fun c => c.y)
  | .styZpx _ => .store .zpx (fun c => c.y)
  | .styAbs _ => .store .abs (fun c => c.y)
  | .tax => .implied (fun c => loadX c.a c)
  | .tay => .implied (fun c => loadY c.a c)
  | .txa => .implied (fun c => loadA c.x c)
  | .tya => .implied (fun c => loadA c.y c)
  | .tsx => .implied (fun c => loadX c.s c)
  | .txs => .implied (fun c => setS c.x c)
  | .adcImm _ => .immediate addToA
  | .adcZp _ => .read .zp addToA
  | .adcZpx _ => .read .zpx addToA
  | .adcAbs _ => .read .abs addToA
  | .adcAbx _ => .read .abx addToA
  | .adcAby _ => .read .aby addToA
  | .adcIzx _ => .read .izx addToA
  | .adcIzy _ => .read .izy addToA
  | .sbcImm _ => .immediate subtractFromA
  | .sbcZp _ => .read .zp subtractFromA
  | .sbcZpx _ => .read .zpx subtractFromA
  | .sbcAbs _ => .read .abs subtractFromA
  | .sbcAbx _ => .read .abx subtractFromA
  | .sbcAby _ => .read .aby subtractFromA
  | .sbcIzx _ => .read .izx subtractFromA
  | .sbcIzy _ => .read .izy subtractFromA
  | .andImm _ => .immediate andFn
  | .andZp _ => .read .zp andFn
  | .andZpx _ => .read .zpx andFn
  | .andAbs _ => .read .abs andFn
  | .andAbx _ => .read .abx andFn
  | .andAby _ => .read .aby andFn
  | .andIzx _ => .read .izx andFn
  | .andIzy _ => .read .izy andFn
  | .oraImm _ => .immediate oraFn
  | .oraZp _ => .read .zp oraFn
  | .oraZpx _ => .read .zpx oraFn
  | .oraAbs _ => .read .abs oraFn
  | .oraAbx _ => .read .abx oraFn
  | .oraAby _ => .read .aby oraFn
  | .oraIzx _ => .read .izx oraFn
  | .oraIzy _ => .read .izy oraFn
  | .eorImm _ => .immediate eorFn
  | .eorZp _ => .read .zp eorFn
  | .eorZpx _ => .read .zpx eorFn
  | .eorAbs _ => .read .abs eorFn
  | .eorAbx _ => .read .abx eorFn
  | .eorAby _ => .read .aby eorFn
  | .eorIzx _ => .read .izx eorFn
  | .eorIzy _ => .read .izy eorFn
  | .bitZp _ => .read .zp bitFlags
  | .bitAbs _ => .read .abs bitFlags
  | .cmpImm _ => .immediate cmpFn
  | .cmpZp _ => .read .zp cmpFn
  | .cmpZpx _ => .read .zpx cmpFn
  | .cmpAbs _ => .read .abs cmpFn
  | .cmpAbx _ => .read .abx cmpFn
  | .cmpAby _ => .read .aby cmpFn
  | .cmpIzx _ => .read .izx cmpFn
  | .cmpIzy _ => .read .izy cmpFn
  | .cpxImm _ => .immediate cpxFn
  | .cpxZp _ => .read .zp cpxFn
  | .cpxAbs _ => .read .abs cpxFn
  | .cpyImm _ => .immediate cpyFn
  | .cpyZp _ => .read .zp cpyFn
  | .cpyAbs _ => .read .abs cpyFn
  | .incZp _ => .modify .zp incFn
  | .incZpx _ => .modify .zpx incFn
  | .incAbs _ => .modify .abs incFn
  | .incAbx _ => .modify .abx incFn
  | .decZp _ => .modify .zp decFn
  | .decZpx _ => .modify .zpx decFn
  | .decAbs _ => .modify .abs decFn
  | .decAbx _ => .modify .abx decFn
  | .inx => .implied (fun c => loadX (c.x + 1) c)
  | .iny => .implied (fun c => loadY (c.y + 1) c)
  | .dex => .implied (fun c => loadX (c.x - 1) c)
  | .dey => .implied (fun c => loadY (c.y - 1) c)
  | .aslAcc => .implied (fun c => shiftA (aslByte c.a) c)
  | .aslZp _ => .modify .zp aslFn
  | .aslZpx _ => .modify .zpx aslFn
  | .aslAbs _ => .modify .abs aslFn
  | .aslAbx _ => .modify .abx aslFn
  | .lsrAcc => .implied (fun c => shiftA (lsrByte c.a) c)
  | .lsrZp _ => .modify .zp lsrFn
  | .lsrZpx _ => .modify .zpx lsrFn
  | .lsrAbs _ => .modify .abs lsrFn
  | .lsrAbx _ => .modify .abx lsrFn
  | .rolAcc => .implied (fun c => shiftA (rolByte c.c c.a) c)
  | .rolZp _ => .modify .zp rolFn
  | .rolZpx _ => .modify .zpx rolFn
  | .rolAbs _ => .modify .abs rolFn
  | .rolAbx _ => .modify .abx rolFn
  | .rorAcc => .implied (fun c => shiftA (rorByte c.c c.a) c)
  | .rorZp _ => .modify .zp rorFn
  | .rorZpx _ => .modify .zpx rorFn
  | .rorAbs _ => .modify .abs rorFn
  | .rorAbx _ => .modify .abx rorFn
  | .jmpAbs _ => .jmpAbs
  | .jmpInd _ => .jmpInd
  | .jsrAbs _ => .jsr
  | .rts => .rts
  | .bccRel _ => .branch (fun c => !c.c)
  | .bcsRel _ => .branch (fun c => c.c)
  | .beqRel _ => .branch (fun c => c.z)
  | .bneRel _ => .branch (fun c => !c.z)
  | .bmiRel _ => .branch (fun c => c.n)
  | .bplRel _ => .branch (fun c => !c.n)
  | .bvcRel _ => .branch (fun c => !c.v)
  | .bvsRel _ => .branch (fun c => c.v)
  | .brk => .brk
  | .rti => .rti
  | .pha => .push (fun c => c.a)
  | .php => .push (fun c => packP c true)
  | .pla => .pull loadA
  | .plp => .pull unpackP
  | .clc => .implied (setC false)
  | .sec => .implied (setC true)
  | .cli => .implied (setI false)
  | .sei => .implied (setI true)
  | .cld => .implied (setD false)
  | .sed => .implied (setD true)
  | .clv => .implied (setV false)
  | .nop => .implied id
  | .sloZp _ => .modify .zp sloFn
  | .sloZpx _ => .modify .zpx sloFn
  | .sloAbs _ => .modify .abs sloFn
  | .sloAbx _ => .modify .abx sloFn
  | .sloAby _ => .modify .aby sloFn
  | .sloIzx _ => .modify .izx sloFn
  | .sloIzy _ => .modify .izy sloFn
  | .rlaZp _ => .modify .zp rlaFn
  | .rlaZpx _ => .modify .zpx rlaFn
  | .rlaAbs _ => .modify .abs rlaFn
  | .rlaAbx _ => .modify .abx rlaFn
  | .rlaAby _ => .modify .aby rlaFn
  | .rlaIzx _ => .modify .izx rlaFn
  | .rlaIzy _ => .modify .izy rlaFn
  | .sreZp _ => .modify .zp sreFn
  | .sreZpx _ => .modify .zpx sreFn
  | .sreAbs _ => .modify .abs sreFn
  | .sreAbx _ => .modify .abx sreFn
  | .sreAby _ => .modify .aby sreFn
  | .sreIzx _ => .modify .izx sreFn
  | .sreIzy _ => .modify .izy sreFn
  | .rraZp _ => .modify .zp rraFn
  | .rraZpx _ => .modify .zpx rraFn
  | .rraAbs _ => .modify .abs rraFn
  | .rraAbx _ => .modify .abx rraFn
  | .rraAby _ => .modify .aby rraFn
  | .rraIzx _ => .modify .izx rraFn
  | .rraIzy _ => .modify .izy rraFn
  | .saxZp _ => .store .zp andAX
  | .saxZpy _ => .store .zpy andAX
  | .saxAbs _ => .store .abs andAX
  | .saxIzx _ => .store .izx andAX
  | .laxZp _ => .read .zp laxFn
  | .laxZpy _ => .read .zpy laxFn
  | .laxAbs _ => .read .abs laxFn
  | .laxAby _ => .read .aby laxFn
  | .laxIzx _ => .read .izx laxFn
  | .laxIzy _ => .read .izy laxFn
  | .dcpZp _ => .modify .zp dcpFn
  | .dcpZpx _ => .modify .zpx dcpFn
  | .dcpAbs _ => .modify .abs dcpFn
  | .dcpAbx _ => .modify .abx dcpFn
  | .dcpAby _ => .modify .aby dcpFn
  | .dcpIzx _ => .modify .izx dcpFn
  | .dcpIzy _ => .modify .izy dcpFn
  | .iscZp _ => .modify .zp iscFn
  | .iscZpx _ => .modify .zpx iscFn
  | .iscAbs _ => .modify .abs iscFn
  | .iscAbx _ => .modify .abx iscFn
  | .iscAby _ => .modify .aby iscFn
  | .iscIzx _ => .modify .izx iscFn
  | .iscIzy _ => .modify .izy iscFn
  | .ancImm0B _ => .immediate ancFn
  | .ancImm2B _ => .immediate ancFn
  | .alrImm _ => .immediate alrFn
  | .arrImm _ => .immediate arrFn
  | .axsImm _ => .immediate axsFn
  | .sbcImmEB _ => .immediate subtractFromA
  | .nopImp1A => .implied id
  | .nopImp3A => .implied id
  | .nopImp5A => .implied id
  | .nopImp7A => .implied id
  | .nopImpDA => .implied id
  | .nopImpFA => .implied id
  | .nopImm80 _ => .immediate nopFn
  | .nopImm82 _ => .immediate nopFn
  | .nopImm89 _ => .immediate nopFn
  | .nopImmC2 _ => .immediate nopFn
  | .nopImmE2 _ => .immediate nopFn
  | .nopZp04 _ => .read .zp nopFn
  | .nopZp44 _ => .read .zp nopFn
  | .nopZp64 _ => .read .zp nopFn
  | .nopZpx14 _ => .read .zpx nopFn
  | .nopZpx34 _ => .read .zpx nopFn
  | .nopZpx54 _ => .read .zpx nopFn
  | .nopZpx74 _ => .read .zpx nopFn
  | .nopZpxD4 _ => .read .zpx nopFn
  | .nopZpxF4 _ => .read .zpx nopFn
  | .nopAbs0C _ => .read .abs nopFn
  | .nopAbx1C _ => .read .abx nopFn
  | .nopAbx3C _ => .read .abx nopFn
  | .nopAbx5C _ => .read .abx nopFn
  | .nopAbx7C _ => .read .abx nopFn
  | .nopAbxDC _ => .read .abx nopFn
  | .nopAbxFC _ => .read .abx nopFn
  | .aneImm _ => .immediate (aneFn chip.magicAne)
  | .lxaImm _ => .immediate (lxaFn chip.magicLxa)
  | .shaAby _ => .storeHigh .aby andAX id
  | .shaIzy _ => .storeHigh .izy andAX id
  | .shxAby _ => .storeHigh .aby (fun c => c.x) id
  | .shyAbx _ => .storeHigh .abx (fun c => c.y) id
  | .tasAby _ => .storeHigh .aby andAX (fun c => setS (andAX c) c)
  | .lasAby _ => .read .aby lasFn
  | .jam02 => .implied jamFn
  | .jam12 => .implied jamFn
  | .jam22 => .implied jamFn
  | .jam32 => .implied jamFn
  | .jam42 => .implied jamFn
  | .jam52 => .implied jamFn
  | .jam62 => .implied jamFn
  | .jam72 => .implied jamFn
  | .jam92 => .implied jamFn
  | .jamB2 => .implied jamFn
  | .jamD2 => .implied jamFn
  | .jamF2 => .implied jamFn

/-- The plan of an opcode byte. -/
def planOfOpcode (chip : ChipParams) (op : Byte) : Plan := planOf chip (decodeBytes op 0x00 0x00)

/-! ### Micro-steps -/

/-- What one cycle leaves: the list goes on, or the cycle was the last. -/
inductive CycleResult where
  | more (s : State)
  | last (s : State)

/-- A change of the scratch cells. -/
def onMicro (f : Micro → Micro) (s : State) : State := onCpu (fun c => { c with micro := f c.micro }) s

/-- The index register of a mode with an index. -/
def modeIndex (m : Mode) (c : Cpu) : Byte :=
  match m with
  | .zpx => c.x
  | .abx => c.x
  | .izx => c.x
  | _ => c.y

/-- The cycles of a mode up to its access, the opcode fetch included (R172 to R181): a read that crosses no page has one
fewer in the modes with a carrying index. -/
def addressLength (k : Kind) (m : Mode) (crossed : Bool) : Nat :=
  let carry := if k = .read ∧ crossed = false then 0 else 1
  match m with
  | .zp => 2
  | .zpx => 3
  | .zpy => 3
  | .abs => 3
  | .abx => 3 + carry
  | .aby => 3 + carry
  | .izx => 5
  | .izy => 4 + carry

/-- `base`, `ea` and `crossed` from the two bytes of a base address (R177, R181). -/
def latchIndexed (index lo hi : Byte) (s : State) : State :=
  onMicro (fun u =>
    { u with lo := lo, hi := hi, ea := indexedAddr (wordOf hi lo) index, crossed := crossesPage (wordOf hi lo) index }) s

/-- The dummy read at the un-carried address (R177, R181). -/
def earlyCycle (index : Byte) (s : State) : State :=
  dummyRead (earlyAddr (wordOf s.cpu.micro.hi s.cpu.micro.lo) index) s

/-- An address cycle: `t` cycles of the instruction have been performed. -/
def addressCycle (m : Mode) (t : Nat) (s : State) : State :=
  match t, m with
  | 1, _ =>
    let r := fetch s
    onMicro (fun u => { u with lo := r.1, ea := zeroPage r.1 }) r.2
  | 2, .abs =>
    let r := fetch s
    onMicro (fun u => { u with hi := r.1, ea := wordOf r.1 u.lo }) r.2
  | 2, .abx =>
    let r := fetch s
    latchIndexed s.cpu.x s.cpu.micro.lo r.1 r.2
  | 2, .aby =>
    let r := fetch s
    latchIndexed s.cpu.y s.cpu.micro.lo r.1 r.2
  | 2, .izy =>
    let r := rd s s.cpu.micro.ea
    onMicro (fun u => { u with lo := r.1, ea := zeroPage (u.lo + 1) }) r.2
  | 2, _ =>
    let t := dummyRead s.cpu.micro.ea s
    onMicro (fun u => { u with ea := zeroPage (u.lo + modeIndex m s.cpu) }) t
  | 3, .izx =>
    let r := rd s s.cpu.micro.ea
    onMicro (fun u => { u with lo := r.1, ea := zeroPage (loByte u.ea + 1) }) r.2
  | 3, .izy =>
    let r := rd s s.cpu.micro.ea
    latchIndexed s.cpu.y s.cpu.micro.lo r.1 r.2
  | 3, _ => earlyCycle (modeIndex m s.cpu) s
  | _, .izx =>
    let r := rd s s.cpu.micro.ea
    onMicro (fun u => { u with hi := r.1, ea := wordOf r.1 u.lo }) r.2
  | _, _ => earlyCycle (modeIndex m s.cpu) s

/-- The next cycle of a memory instruction: an address cycle, or the access cycle `j` (R183 to R185). -/
def memoryCycle (k : Kind) (m : Mode) (access : Nat → State → CycleResult) (s : State) : CycleResult :=
  let t := s.cpu.tick
  let n := addressLength k m s.cpu.micro.crossed
  if t < n then .more (addressCycle m t s) else access (t - n) s

/-- The access cycle of a read (R183). -/
def readAccess (f : Byte → Cpu → Cpu) (s : State) : CycleResult :=
  let r := rd s s.cpu.micro.ea
  .last (onCpu (f r.1) r.2)

/-- The access cycle of a store (R185). -/
def storeAccess (f : Cpu → Byte) (s : State) : CycleResult := .last (wr s s.cpu.micro.ea (f s.cpu))

/-- The three access cycles of a read-modify-write (R184). -/
def modifyAccess (f : Byte → Cpu → Byte × Cpu) (j : Nat) (s : State) : CycleResult :=
  match j with
  | 0 =>
    let r := rd s s.cpu.micro.ea
    .more (onMicro (fun u => { u with val := r.1 }) r.2)
  | 1 => .more (wr s s.cpu.micro.ea s.cpu.micro.val)
  | _ =>
    let v := s.cpu.micro.val
    .last (onCpu (fun c => (f v c).2) (wr s s.cpu.micro.ea (f v s.cpu).1))

/-- The access cycle of `StoreHigh` (R259, R279). TAS's `S <- A & X` takes effect here, after the write: R279 lists it before
the accesses and names no cycle, and R621 speaks only of updates listed after the last one; DESIGN CHOICE, log 19. -/
def storeHighAccess (m : Mode) (r : Cpu → Byte) (g : Cpu → Cpu) (s : State) : CycleResult :=
  let base := wordOf s.cpu.micro.hi s.cpu.micro.lo
  let v := r s.cpu
  .last (onCpu g (wr s (storeHighAddr base (modeIndex m s.cpu) v) (storeHighByte base v)))

/-- A cycle of a branch (R233): the target waits in `ea`. -/
def branchCycle (cond : Cpu → Bool) (s : State) : CycleResult :=
  match s.cpu.tick with
  | 1 =>
    let r := fetch s
    if cond s.cpu then .more (onMicro (fun u => { u with ea := branchTarget r.2.cpu.pc r.1 }) r.2) else .last r.2
  | 2 =>
    let t := readPc s
    if hiByte s.cpu.micro.ea ≠ hiByte s.cpu.pc then .more t else .last (onCpu (setPc s.cpu.micro.ea) t)
  | _ =>
    .last (onCpu (setPc s.cpu.micro.ea) (dummyRead (wordOf (hiByte s.cpu.pc) (loByte s.cpu.micro.ea)) s))

/-- `lo <- v` in the scratch cells. -/
def latchLo (r : Byte × State) : State := onMicro (fun u => { u with lo := r.1 }) r.2

/-- `PC <- {v, lo}`. -/
def jumpTo (r : Byte × State) : State := onCpu (fun c => { c with pc := wordOf r.1 c.micro.lo }) r.2

/-- The two vector cycles of an entry (R410, R413, R245). -/
def vectorLow (vector : Word) (s : State) : State := latchLo (rd s vector)

/-- The second vector cycle. -/
def vectorHigh (vector : Word) (s : State) : State := jumpTo (rd s (vector + 1))

/-- The next cycle of an instruction, by its plan: `tick` cycles have been performed, the opcode fetch among them. The update
that R245 (`I <- 1`) and R236 (`PC <- {hi, lo}`) write between two accesses takes effect in the call of the access before it;
DESIGN CHOICE, log 20. -/
def planCycle (p : Plan) (s : State) : CycleResult :=
  match p with
  | .implied f => .last (impliedInstr f s)
  | .immediate f =>
    let r := fetch s
    .last (onCpu (f r.1) r.2)
  | .read m f => memoryCycle .read m (fun _ => readAccess f) s
  | .store m f => memoryCycle .write m (fun _ => storeAccess f) s
  | .modify m f => memoryCycle .modify m (modifyAccess f) s
  | .storeHigh m r g => memoryCycle .write m (fun _ => storeHighAccess m r g) s
  | .branch cond => branchCycle cond s
  | .jmpAbs =>
    match s.cpu.tick with
    | 1 => .more (latchLo (fetch s))
    | _ => .last (jumpTo (rd s s.cpu.pc))
  | .jmpInd =>
    match s.cpu.tick with
    | 1 => .more (latchLo (fetch s))
    | 2 =>
      let r := fetch s
      .more (onMicro (fun u => { u with hi := r.1, ea := wordOf r.1 u.lo }) r.2)
    | 3 => .more (latchLo (rd s s.cpu.micro.ea))
    | _ => .last (jumpTo (rd s (wordOf (hiByte s.cpu.micro.ea) (loByte s.cpu.micro.ea + 1))))
  | .jsr =>
    match s.cpu.tick with
    | 1 => .more (latchLo (fetch s))
    | 2 => .more (readStack s)
    | 3 => .more (push (hiByte s.cpu.pc) s)
    | 4 => .more (push (loByte s.cpu.pc) s)
    | _ => .last (jumpTo (rd s s.cpu.pc))
  | .rts =>
    match s.cpu.tick with
    | 1 => .more (readPc s)
    | 2 => .more (readStack s)
    | 3 => .more (latchLo (pull s))
    | 4 => .more (jumpTo (pull s))
    | _ =>
      let t := readPc s
      .last (onCpu (setPc (t.cpu.pc + 1)) t)
  | .brk =>
    match s.cpu.tick with
    | 1 => .more (fetch s).2
    | 2 => .more (push (hiByte s.cpu.pc) s)
    | 3 => .more (push (loByte s.cpu.pc) s)
    | 4 => .more (onCpu (setI true) (push (packP s.cpu true) s))
    | 5 => .more (vectorLow vecIrq s)
    | _ => .last (vectorHigh vecIrq s)
  | .rti =>
    match s.cpu.tick with
    | 1 => .more (readPc s)
    | 2 => .more (readStack s)
    | 3 =>
      let r := pull s
      .more (onCpu (unpackP r.1) r.2)
    | 4 => .more (latchLo (pull s))
    | _ => .last (jumpTo (pull s))
  | .push f =>
    match s.cpu.tick with
    | 1 => .more (readPc s)
    | _ => .last (push (f s.cpu) s)
  | .pull f =>
    match s.cpu.tick with
    | 1 => .more (readPc s)
    | 2 => .more (readStack s)
    | _ =>
      let r := pull s
      .last (onCpu (f r.1) r.2)

/-- The cycles of interrupt service and of the reset sequence that read PC before the five others (R410, R413). -/
def leadingReads (s : State) : Nat := s.chip.intCycles.count - 5

/-- The cycle `j` of interrupt service after its leading reads (R410). `I <- 1`, which R410 writes between two accesses, takes
effect in the call of the third push: neither R410 nor R621 names a cycle for it; DESIGN CHOICE, log 20. -/
def entryCycle (vector : Word) (j : Nat) (s : State) : CycleResult :=
  match j with
  | 0 => .more (push (hiByte s.cpu.pc) s)
  | 1 => .more (push (loByte s.cpu.pc) s)
  | 2 => .more (onCpu (setI true) (push (packP s.cpu false) s))
  | 3 => .more (vectorLow vector s)
  | _ => .last (vectorHigh vector s)

/-- The next cycle of interrupt service (R410). -/
def serviceCycle (vector : Word) (s : State) : CycleResult :=
  if s.cpu.tick < leadingReads s then .more (readPc s) else entryCycle vector (s.cpu.tick - leadingReads s) s

/-- The cycle `j` of the reset sequence after its leading reads (R413). `I <- 0` takes effect in the call of the third stack
read; DESIGN CHOICE, log 20. -/
def resetTailCycle (j : Nat) (s : State) : CycleResult :=
  match j with
  | 0 => .more (resetPull s)
  | 1 => .more (resetPull s)
  | 2 => .more (onCpu (setI false) (resetPull s))
  | 3 => .more (vectorLow vecReset s)
  | _ => .last (resetLatches (vectorHigh vecReset s))

/-- The next cycle of the reset sequence (R413), whose audio write came with the call that began it. -/
def resetCycle (s : State) : CycleResult :=
  if s.cpu.tick < leadingReads s then .more (readPc s) else resetTailCycle (s.cpu.tick - leadingReads s) s

/-- `cur_op <- k`. -/
def setCurOp (k : CurOp) (s : State) : State := onMicro (fun u => { u with curOp := k }) s

/-- The wait cycle of the object-memory DMA (R108): `dma_page` is emptied into the scratch cells in this call (DESIGN CHOICE,
log 20), and the parity after the cycle decides on the alignment cycle. -/
def dmaWaitCycle (s : State) : CycleResult :=
  let page := s.cpu.dmaPage.getD 0x00
  let t := readPc (onCpu (fun c => { c with dmaPage := none }) s)
  let t := onMicro (fun u => { u with hi := page, lo := 0x00 }) t
  .more (setCurOp (if t.cpu.cycles % 2 = 1 then .dmaAlign else .dmaRead) t)

/-- A read cycle of the DMA. -/
def dmaReadCycle (s : State) : CycleResult :=
  let r := rd s (wordOf s.cpu.micro.hi s.cpu.micro.lo)
  .more (setCurOp .dmaWrite (onMicro (fun u => { u with val := r.1 }) r.2))

/-- A write cycle of the DMA; the 256th is the last. -/
def dmaWriteCycle (s : State) : CycleResult :=
  let t := wr s 0x2004 s.cpu.micro.val
  if s.cpu.micro.lo = 0xFF then .last t
  else .more (setCurOp .dmaRead (onMicro (fun u => { u with lo := u.lo + 1 }) t))

/-- The next cycle of what `cur_op` names. -/
def nextCycle (s : State) : CycleResult :=
  match s.cpu.micro.curOp with
  | .opcode op => planCycle (planOfOpcode s.chip op) s
  | .seqNmi => serviceCycle vecNmi s
  | .seqIrq => serviceCycle vecIrq s
  | .seqReset => resetCycle s
  | .dmaWait => dmaWaitCycle s
  | .dmaAlign => .more (setCurOp .dmaRead (readPc s))
  | .dmaRead => dmaReadCycle s
  | .dmaWrite => dmaWriteCycle s

/-- After a cycle: a list that ends passes to the DMA it asked for, or to the boundary (R404, R108). -/
def closeCycle (r : CycleResult) : State :=
  match r with
  | .more s => s
  | .last s => if s.cpu.dmaPage = none then endStep s else setCurOp .dmaWait s

/-- The first cycle of an instruction: the opcode into `cur_op`. -/
def opcodeCycle (s : State) : CycleResult :=
  let r := fetch s
  .more (setCurOp (.opcode r.1) r.2)

/-- The first cycle of a step (R621, R404). -/
def firstCycle (s : State) : CycleResult :=
  match boundaryChoice s with
  | .jammed => .last (jammedStep s)
  | .nmi => serviceCycle vecNmi (setCurOp .seqNmi (onCpu (fun c => { c with nmiPending := false }) s))
  | .irq => serviceCycle vecIrq (setCurOp .seqIrq s)
  | .instruction => opcodeCycle s

/-- `StepCycle()` (R621). -/
def stepCycle (s : State) : State := closeCycle (if s.cpu.tick = 0 then firstCycle s else nextCycle s)

end Sys2Proof.Machine
end

