-- ==== Sys2Proof/Machine/HostOps.lean ====
section
/-! DEFINITION. The host operations (64_system_step_and_host.md R620) beside the two step calls: cartridge load, power-on,
reset, interrupt and button injection, the outputs, and the debug reads. Each acts only between step calls. -/

namespace Sys2Proof.Machine

/-! ### Cartridge load and power-on (R634, R650) -/

/-- The parsed cartridge image (R634, R66): what a host's file parser hands over. -/
structure Image where
  mapperId     : Nat
  mirroringHdr : HeaderMirroring
  hasBattery   : Bool
  /-- program banks, units of 0x4000 bytes -/
  prgBanks     : Nat
  /-- character banks, units of 0x2000 bytes -/
  chrBanks     : Nat
  prg          : List Byte
  chr          : List Byte
  deriving DecidableEq, Repr

/-- The two load errors (R634). -/
inductive LoadError where
  | unsupportedMapper
  | malformedImage
  deriving DecidableEq, Repr

/-- The power-on contents that are a draw (R650, R652, D17, `POWER_ON_RAM` etc.): an argument of the construction. -/
structure Draws where
  ram     : Memory
  vram    : Memory
  palette : Cells 6
  oam     : Memory
  ntExtra : Memory
  deriving DecidableEq, Repr

/-- The variant that a header id selects, at its power-on register values (R587, R593, R596; log 10). -/
def variantOf : Nat → Option Variant
  | 0 => some .fixed
  | 2 => some (.simpleBanked 0)
  | 4 => some (.scanlineIrq .powerOn)
  | _ => none

/-- The bytes of a program or character bank, and of save memory (R634). -/
def prgBankSize : Nat := 0x4000

/-- The unit of `chr_banks` (R634). -/
def chrBankSize : Nat := 0x2000

/-- The bytes of save memory (R67, R634). -/
def saveSize : Nat := 0x2000

/-- The variant of an id that the machine supports (R587, `SUPPORTED_MAPPERS`). -/
def supportedVariant (chip : ChipParams) (id : Nat) : Option Variant :=
  if id ∈ chip.supportedMappers then variantOf id else none

/-- The checks of `LoadCartridge`, in their order (R634). -/
def checkImage (image : Image) (save : Option (List Byte)) (chip : ChipParams) : Except LoadError Variant :=
  match supportedVariant chip image.mapperId with
  | none => .error .unsupportedMapper
  | some v =>
    if image.prgBanks = 0 ∨ image.prg.length ≠ image.prgBanks * prgBankSize ∨
        image.chr.length ≠ image.chrBanks * chrBankSize then .error .malformedImage
    else
      match save with
      | some b => if b.length ≠ saveSize then .error .malformedImage else .ok v
      | none => .ok v

/-- The cartridge that a checked image makes (R634, R66, R586): with no character data, 0x2000 writable bytes; the extra name
tables only where the header says FourScreen. -/
def Image.cartridge (image : Image) (save : Option (List Byte)) (draws : Draws) (v : Variant) : Cartridge :=
  { variant := v
    prg := Cells.ofList image.prg
    prgLen := image.prg.length
    chr := Cells.ofList image.chr
    chrLen := if image.chrBanks = 0 then chrBankSize else image.chr.length
    chrIsRam := image.chrBanks == 0
    prgRam := Cells.ofList (save.getD [])
    ntExtra := if image.mirroringHdr = .fourScreen then draws.ntExtra else []
    mirroringHdr := image.mirroringHdr
    mapperId := image.mapperId
    hasBattery := image.hasBattery }

/-- `PowerOn(image, save)` (R650) from a cartridge, the draws and the open parameters: every cell at its power-on
value, then the reset sequence. -/
def powerOn (cart : Cartridge) (draws : Draws) (chip : ChipParams) : State :=
  let s := State.powerOn cart
  resetSequence
    { s with
      ram := draws.ram
      ppu := { s.ppu with vram := draws.vram, palette := draws.palette, oam := draws.oam }
      chip := chip }

/-- `LoadCartridge(image, save)` (R634). A success replaces the whole state; a failure leaves it unchanged, or, where
there was none, gives the power-on state of the Empty variant. -/
def loadCartridge (image : Image) (save : Option (List Byte)) (draws : Draws) (chip : ChipParams)
    (prior : Option State) : Except LoadError State × State :=
  match checkImage image save chip with
  | .ok v =>
    let s := powerOn (image.cartridge save draws v) draws chip
    (.ok s, s)
  | .error e => (.error e, prior.getD (powerOn .empty draws chip))

/-! ### Reset, interrupt and input injection -/

/-- `Reset()` (R651): an instruction in progress is abandoned, then the reset sequence runs. -/
def hostReset (s : State) : State :=
  resetSequence (onCpu (fun c => { c with tick := 0, dmaPage := none, micro := .idle }) s)

/-- `RaiseNmi()` (R627). -/
def raiseNmi (s : State) : State := onCpu (fun c => { c with nmiPending := true }) s

/-- The eight buttons, in the serial order (R45). -/
inductive Button where
  | a
  | b
  | select
  | start
  | up
  | down
  | left
  | right
  deriving DecidableEq, Repr

/-- The bit of a button in `buttons[p]` (R45). -/
def Button.bit : Button → Byte
  | .a => 0x01
  | .b => 0x02
  | .select => 0x04
  | .start => 0x08
  | .up => 0x10
  | .down => 0x20
  | .left => 0x40
  | .right => 0x80

/-- The two controller ports. -/
inductive Port where
  | one
  | two
  deriving DecidableEq, Repr

/-- Sets or clears one button of a port (R106). -/
def Pad.setButton (p : Pad) (k : Button) (pressed : Bool) : Pad :=
  { p with buttons := if pressed then p.buttons ||| k.bit else p.buttons &&& ~~~ k.bit }

/-- `SetButton(p, b, pressed)` (R106, R620): nothing else changes. -/
def setButton (p : Port) (k : Button) (pressed : Bool) (s : State) : State :=
  match p with
  | .one => { s with pad1 := s.pad1.setButton k pressed }
  | .two => { s with pad2 := s.pad2.setButton k pressed }

/-! ### Outputs -/

/-- `TakeFrame()` (R629): the frame that waits, taken once. -/
def takeFrame (s : State) : Option (Cells 6) × State :=
  if s.ppu.frameReady then (some s.ppu.frameOut, { s with ppu := { s.ppu with frameReady := false } })
  else (none, s)

/-- The colour index of a pixel of a frame, row-major from the top left (R629). -/
def framePixel (frame : Cells 6) (x y : Nat) : BitVec 6 := Cells.read frame (256 * y + x)

/-- The emphasis bits exported with the frame (R51): those of the mask register at the moment the host reads them. R51
names no cell and no moment at which they are sampled; DESIGN CHOICE, log 18. -/
def emphasis (s : State) : BitVec 3 := s.ppu.mask.extractLsb' 5 3

/-- `ChannelLevels()` (R630): the five channel outputs of the last tick. -/
def channelLevels (s : State) : Levels := s.apu.levels

/-- `Amplitude()` (R630, R548): `MIX` of the levels of the last tick. `MIX` is open (log 5). -/
def amplitude (s : State) : Rat :=
  let l := s.apu.levels
  Config.mix l.p1 l.p2 l.t l.n l.d

/-- `ExportSaveMemory()` (R636): a copy of the 0x2000 bytes, where there is a battery. -/
def exportSaveMemory (s : State) : Option (List Byte) :=
  if s.cart.hasBattery then some (Cells.toList s.cart.prgRam saveSize) else none

/-- What `StepInstruction()` returns (R623): the bus cycles that a step consumed. -/
def consumedCycles (before after : State) : Nat := after.cpu.cycles - before.cpu.cycles

/-- The debug read of a CPU address (R94, R632): the byte alone, the state as it was. -/
def debugRead (s : State) (a : Word) : Byte × State := (peek s a, s)

end Sys2Proof.Machine
end

