-- ==== Sys2Proof/Safety.lean ====
section
/-! DEFINITION. What a well-kept machine is: the invariants of the spec's data model (10_state.md R46, R58, R66, R67), the
canonical form of every memory, and what holds at an instruction boundary. Every step keeps them. -/

namespace Sys2Proof.Machine

/-- A store in canonical form with all its cells below `n`. -/
abbrev Cells.sized {width : Nat} (m : Cells width) (n : Nat) : Prop := Cells.wf m ∧ Cells.below m n

/-- The cells of a frame: 256 x 240 (R451). -/
def frameCells : Nat := 256 * 240

/-- The memories of the Picture Unit hold their sizes (R46). -/
structure Ppu.MemoriesOk (p : Ppu) : Prop where
  vram     : Cells.sized (width := 8) p.vram 0x800
  palette  : Cells.sized p.palette 32
  oam      : Cells.sized (width := 8) p.oam 0x100
  oam2     : Cells.sized (width := 8) p.oam2 32
  pixels   : Cells.sized p.pixels frameCells
  frameOut : Cells.sized p.frameOut frameCells

/-- The raster invariant of R46 ("scanline and dot counters always lie within the defined raster geometry"), `odd_frame`
as the parity of `frame`, and the bounds of the sprite cells. -/
structure Ppu.RasterOk (p : Ppu) : Prop where
  scanline : p.scanline < scanlinesPerFrame
  dot      : p.dot < dotsPerScanline
  parity   : p.oddFrame = decide (p.frame % 2 = 1)
  count    : p.oam2Count ≤ 8
  units    : p.sprites.length = 8

/-- The storage of a cartridge: what the load checks guarantee (R584, R634), its memories within their sizes, and no extra
name tables but in a FourScreen cartridge (R586). -/
structure Cartridge.StorageOk (c : Cartridge) : Prop where
  prg      : Cells.sized (width := 8) c.prg c.prgLen
  chr      : Cells.sized (width := 8) c.chr c.chrLen
  prgRam   : Cells.sized (width := 8) c.prgRam saveSize
  ntExtra  : Cells.sized (width := 8) c.ntExtra 0x800
  nonempty : c.variant ≠ .empty → 0 < c.prgLen ∧ c.prgLen % prgBankSize = 0 ∧ 0 < c.chrLen
  absent   : c.mirroringHdr ≠ .fourScreen → c.ntExtra = []

/-- The invariants of the Audio Unit: a disabled channel's length counter stays 0 (R526), the noise shift register is
never 0 (R535), the output clock counts 1..8 bits, a waiting sample address lies in cartridge space (R109), and the
sequencer's delay is 0..5 (R58). -/
structure Apu.ChannelsOk (u : Apu) : Prop where
  pulse1     : u.pulse1.enabled = false → u.pulse1.length = 0
  pulse2     : u.pulse2.enabled = false → u.pulse2.length = 0
  triangle   : u.triangle.enabled = false → u.triangle.length = 0
  noise      : u.noise.enabled = false → u.noise.length = 0
  lfsr       : u.noise.lfsr ≠ 0
  bitsLeft   : 1 ≤ u.dmc.bitsLeft.toNat ∧ u.dmc.bitsLeft.toNat ≤ 8
  sample     : u.dmc.bytesLeft ≠ 0 → 0x8000 ≤ u.dmc.curAddr.toNat
  resetDelay : u.seq.resetDelay ≤ 5

/-- Every bank register holds a value under its mask (R585): "illegal register writes behave identically". -/
abbrev Variant.Masked (p : ChipParams) : Variant → Prop
  | .simpleBanked bank => bank &&& p.bankMaskSimple = bank
  | .scanlineIrq r =>
    (∀ b ∈ [r.r0, r.r1, r.r2, r.r3, r.r4, r.r5], b &&& p.bankMaskChr1 = b) ∧
      ∀ b ∈ [r.r6, r.r7], b &&& p.bankMaskPrg8 = b
  | _ => True

/-- The invariant of the whole state. -/
structure State.Inv (s : State) : Prop where
  ram      : Cells.sized (width := 8) s.ram 0x800
  memories : s.ppu.MemoriesOk
  raster   : s.ppu.RasterOk
  storage  : s.cart.StorageOk
  channels : s.apu.ChannelsOk
  masked   : s.cart.variant.Masked s.chip

/-! ### What a read cycle, and a sequence of them, leaves -/

/-- The registers of a mapper variant that only the processor's writes change: the scanline hook's own three cells
(R605) are put to 0. -/
def Variant.banks : Variant → Variant
  | .scanlineIrq r => .scanlineIrq { r with irqCounter := 0x00, irqReload := false, irqFlag := false }
  | v => v

/-- The cells of a pulse channel that only the processor's writes change (R59). -/
def Pulse.settings (p : Pulse) : Pulse :=
  { Pulse.powerOn with
    enabled := p.enabled, duty := p.duty, halt := p.halt, constVol := p.constVol, vol := p.vol
    swEn := p.swEn, swPeriod := p.swPeriod, swNeg := p.swNeg, swShift := p.swShift }

/-- The same of the triangle channel (R60). -/
def Triangle.settings (t : Triangle) : Triangle :=
  { Triangle.powerOn with enabled := t.enabled, ctrl := t.ctrl, linReloadVal := t.linReloadVal, period := t.period }

/-- The same of the noise channel (R61). -/
def Noise.settings (n : Noise) : Noise :=
  { Noise.powerOn with
    enabled := n.enabled, halt := n.halt, constVol := n.constVol, vol := n.vol, mode := n.mode
    periodIdx := n.periodIdx }

/-- The same of the delta-modulation channel (R62). -/
def Dmc.settings (d : Dmc) : Dmc :=
  { Dmc.powerOn with
    enabled := d.enabled, irqEn := d.irqEn, loop := d.loop, rateIdx := d.rateIdx, addrReg := d.addrReg
    lenReg := d.lenReg }

/-- The cells of the Audio Unit that only the processor's writes change (R58 to R65). -/
def Apu.settings (u : Apu) : Apu :=
  { Apu.powerOn with
    pulse1 := u.pulse1.settings, pulse2 := u.pulse2.settings, triangle := u.triangle.settings
    noise := u.noise.settings, dmc := u.dmc.settings
    seq := { FrameSeq.powerOn with mode := u.seq.mode, irqInhibit := u.seq.irqInhibit } }

/-- The cells that neither a bus read nor a cycle of the other units changes: every memory, the storage, identity and
bank registers of the cartridge, the registers of the Picture Unit and the Audio Unit that only the processor writes,
buttons and strobe, the chip. -/
structure MemFrame (s t : State) : Prop where
  ram      : t.ram = s.ram
  buttons1 : t.pad1.buttons = s.pad1.buttons
  buttons2 : t.pad2.buttons = s.pad2.buttons
  strobe   : t.strobe = s.strobe
  chip     : t.chip = s.chip
  vram     : t.ppu.vram = s.ppu.vram
  palette  : t.ppu.palette = s.ppu.palette
  oam      : t.ppu.oam = s.ppu.oam
  ctrl     : t.ppu.ctrl = s.ppu.ctrl
  mask     : t.ppu.mask = s.ppu.mask
  latch    : t.ppu.t = s.ppu.t
  fineX    : t.ppu.fineX = s.ppu.fineX
  prg      : t.cart.prg = s.cart.prg
  prgLen   : t.cart.prgLen = s.cart.prgLen
  chr      : t.cart.chr = s.cart.chr
  chrLen   : t.cart.chrLen = s.cart.chrLen
  chrIsRam : t.cart.chrIsRam = s.cart.chrIsRam
  prgRam   : t.cart.prgRam = s.cart.prgRam
  ntExtra  : t.cart.ntExtra = s.cart.ntExtra
  header   : t.cart.mirroringHdr = s.cart.mirroringHdr
  mapperId : t.cart.mapperId = s.cart.mapperId
  battery  : t.cart.hasBattery = s.cart.hasBattery
  banks    : t.cart.variant.banks = s.cart.variant.banks
  settings : t.apu.settings = s.apu.settings

/-- A processor `k` bus cycles later, its registers untouched: the two counters have moved by `k`, and the NMI latches are
those of the state reached (R40, R41, R622). -/
def Cpu.spent (c : Cpu) (k : Nat) (t : State) : Cpu :=
  { c with
    cycles := c.cycles + k
    tick := c.tick + k
    nmiPrev := t.cpu.nmiPrev
    nmiPending := t.cpu.nmiPending }

/-- `t` is `k` read cycles after `s`: no register, no flag, no memory has changed. -/
structure ReadOnly (s t : State) (k : Nat) : Prop where
  cpu : t.cpu = s.cpu.spent k t
  mem : MemFrame s t

/-- Whether the addition of a mode's carrying index crosses a page (R186); false for the other modes. -/
def crossed (p : Place) (s : State) : Bool :=
  match indexOf p s.cpu with
  | some index => crossesPage (baseOf p s).1 index
  | none => false

/-- The bytes of an instruction with a memory operand (R172 to R181). -/
def Place.length : Place → Nat
  | .abs _ => 3
  | .abx _ => 3
  | .aby _ => 3
  | _ => 2

/-- The table of R187: total cycles by kind and mode, opcode fetch included, the conditional cycle counted where a read
crosses a page. -/
def totalCycles (k : Kind) (p : Place) (crossed : Bool) : Nat :=
  match k, p with
  | .read, .zp _ => 3
  | .read, .zpx _ => 4
  | .read, .zpy _ => 4
  | .read, .abs _ => 4
  | .read, .abx _ => 4 + crossed.toNat
  | .read, .aby _ => 4 + crossed.toNat
  | .read, .izx _ => 6
  | .read, .izy _ => 5 + crossed.toNat
  | .write, .zp _ => 3
  | .write, .zpx _ => 4
  | .write, .zpy _ => 4
  | .write, .abs _ => 4
  | .write, .abx _ => 5
  | .write, .aby _ => 5
  | .write, .izx _ => 6
  | .write, .izy _ => 6
  | .modify, .zp _ => 5
  | .modify, .zpx _ => 6
  | .modify, .zpy _ => 6
  | .modify, .abs _ => 6
  | .modify, .abx _ => 7
  | .modify, .aby _ => 7
  | .modify, .izx _ => 8
  | .modify, .izy _ => 8

/-- The cycles of an instruction that remain after its bytes are fetched (R187). -/
def remainingCycles (k : Kind) (p : Place) (s : State) : Nat := totalCycles k p (crossed p s) - p.length

/-- The cycles that reading an operand takes after the instruction's bytes are fetched (R183, R171). -/
def Source.cycles (o : Source) (s : State) : Nat :=
  match o with
  | .imm _ => 0
  | .mem p => remainingCycles .read p s

/-! ### Operand addresses, from the registers and internal RAM alone (R172 to R181) -/

/-- The word held by the zero-page cells `p` and `u8(p + 1)` (R180, R181). -/
def zeroPageWord (s : State) (p : Byte) : Word :=
  wordOf (Cells.read s.ram (p + 1).toNat) (Cells.read s.ram p.toNat)

/-- `base`: the address before a carrying index is added. -/
def baseAddr (p : Place) (s : State) : Word :=
  match p with
  | .zp z => wordOf 0x00 z
  | .zpx z => wordOf 0x00 (z + s.cpu.x)
  | .zpy z => wordOf 0x00 (z + s.cpu.y)
  | .abs w => w
  | .abx w => w
  | .aby w => w
  | .izx z => zeroPageWord s (z + s.cpu.x)
  | .izy z => zeroPageWord s z

/-- `ea`: the effective address. -/
def effectiveAddr (p : Place) (s : State) : Word :=
  match p with
  | .abx w => w + s.cpu.x.setWidth 16
  | .aby w => w + s.cpu.y.setWidth 16
  | .izy z => zeroPageWord s z + s.cpu.y.setWidth 16
  | _ => baseAddr p s

/-- The dummy read of a carrying index: of `early`, by a read only where the page is crossed (R177, R178, R181). -/
def fixupReads (k : Kind) (base : Word) (index : Byte) : List Word :=
  if k = .read ∧ (loByte base).toNat + index.toNat ≤ 0xFF then [] else [wordOf (hiByte base) (loByte base + index)]

/-- The addresses that the address cycles of a mode read, in order, after the operand bytes (R172 to R181). -/
def addressReads (k : Kind) (p : Place) (s : State) : List Word :=
  match p with
  | .zp _ => []
  | .zpx z => [wordOf 0x00 z]
  | .zpy z => [wordOf 0x00 z]
  | .abs _ => []
  | .abx w => fixupReads k w s.cpu.x
  | .aby w => fixupReads k w s.cpu.y
  | .izx z => [wordOf 0x00 z, wordOf 0x00 (z + s.cpu.x), wordOf 0x00 (z + s.cpu.x + 1)]
  | .izy z => [wordOf 0x00 z, wordOf 0x00 (z + 1)] ++ fixupReads k (zeroPageWord s z) s.cpu.y

/-- The state after reads of the given addresses in turn, the bytes discarded. -/
def afterReads (as : List Word) (s : State) : State := as.foldl (fun u a => (rd u a).2) s

/-! ### Stores -/

/-- Whether a write of this CPU address changes save memory: 0x6000..0x7FFF on a variant that has it, and for ScanlineIrq
only while it is enabled and not protected (R589, R590, R593, R603). -/
def Cartridge.acceptsSave (c : Cartridge) (a : Word) : Bool :=
  decide (0x6000 ≤ a.toNat ∧ a.toNat < 0x8000) &&
    match c.variant with
    | .empty => false
    | .fixed => true
    | .simpleBanked _ => true
    | .scanlineIrq r => r.ramEnable && !r.ramProtect

/-- What storing byte `v` at CPU address `a` between `s` and `t` leaves: every byte of RAM and of save memory but the one
at `a`, and every other memory and written register unless `a` is its register. -/
structure Stored (a : Word) (v : Byte) (s t : State) : Prop where
  ram      : ∀ k, Cells.read t.ram k = if regionOf a = .ram ∧ k = ramIndex a then v else Cells.read s.ram k
  save     : ∀ k, Cells.read t.cart.prgRam k =
    if s.cart.acceptsSave a ∧ k = a.toNat - 0x6000 then v else Cells.read s.cart.prgRam k
  oam      : ¬ (regionOf a = .picture ∧ ppuRegOf a = .oamData) → t.ppu.oam = s.ppu.oam
  video    : ¬ (regionOf a = .picture ∧ ppuRegOf a = .data) →
    t.ppu.vram = s.ppu.vram ∧ t.ppu.palette = s.ppu.palette ∧ t.cart.chr = s.cart.chr ∧ t.cart.ntExtra = s.cart.ntExtra
  picture  : regionOf a ≠ .picture →
    t.ppu.ctrl = s.ppu.ctrl ∧ t.ppu.mask = s.ppu.mask ∧ t.ppu.t = s.ppu.t ∧ t.ppu.fineX = s.ppu.fineX
  settings : regionOf a ≠ .io → t.apu.settings = s.apu.settings
  strobe   : a ≠ 0x4016 → t.strobe = s.strobe
  buttons  : t.pad1.buttons = s.pad1.buttons ∧ t.pad2.buttons = s.pad2.buttons
  banks    : a.toNat < 0x8000 → t.cart.variant.banks = s.cart.variant.banks
  storage  : t.cart.prg = s.cart.prg ∧ t.cart.prgLen = s.cart.prgLen ∧ t.cart.chrLen = s.cart.chrLen ∧
    t.cart.chrIsRam = s.cart.chrIsRam
  identity : t.cart.mirroringHdr = s.cart.mirroringHdr ∧ t.cart.mapperId = s.cart.mapperId ∧
    t.cart.hasBattery = s.cart.hasBattery ∧ t.chip = s.chip

/-- `dma_page` after a store of `v` at `a` (R63). -/
def dmaAfter (a : Word) (v : Byte) (c : Cpu) : Cpu := if a = 0x4014 then { c with dmaPage := some v } else c

/-- Stack bytes alone: every other memory is as it was. -/
def StackOnly (s t : State) : Prop := MemFrame { s with ram := t.ram } t

/-! ### Bus cycles in order -/

/-- One bus access, which is one cycle (R10). -/
inductive BusCycle where
  | read (a : Word)
  | write (a : Word) (v : Byte)
  deriving DecidableEq, Repr

/-- The state after the cycle. -/
def BusCycle.after (c : BusCycle) (s : State) : State :=
  match c with
  | .read a => (rd s a).2
  | .write a v => wr s a v

/-- The state after the given cycles in turn. -/
def afterCycles (cs : List BusCycle) (s : State) : State := cs.foldl (fun u c => c.after u) s

/-- The state `u` that the cycles of an instruction leave, with the registers `c` as they are after `k` cycles: only the
registers of `u` are replaced. -/
def State.withRegs (u : State) (c : Cpu) (k : Nat) : State := { u with cpu := c.spent k u }

/-! ### What it is for an instruction to complete, by its shape

Each says of every form in a table: its opcode byte is the table's, `exec` answers a next state, and which it is. -/

/-- An instruction without operand: one read of PC, then the registers are `f` of what they were (R170, R174). -/
def RunsImplied (op : Byte) (i : Instr) (f : Cpu → Cpu) : Prop :=
  encode i = [op] ∧ ∀ s : State,
    let t := (rd s s.cpu.pc).2.withRegs (f s.cpu) 1
    exec i s = .next t ∧ MemFrame s t

/-- A read instruction: the operand is read, the registers are `f` of its byte and of what they were, in the cycles of
R187; nothing else differs from the state that the operand's cycles leave, and no memory changes (R171, R183). -/
def RunsRead (forms : Source → List (Byte × Instr)) (f : Byte → Cpu → Cpu) : Prop :=
  ∀ (o : Source) (q : Byte × Instr), q ∈ forms o → (encode q.2).head? = some q.1 ∧ ∀ s : State,
    let r := readOperand o s
    let t := r.2.withRegs (f r.1 s.cpu) (o.cycles s)
    exec q.2 s = .next t ∧ MemFrame s t

/-- A store of the byte `v` of the registers: the address cycles, one write at the effective address, and no register or
flag changes (R185). -/
def RunsStore (forms : Place → List (Byte × Instr)) (v : Cpu → Byte) : Prop :=
  ∀ (p : Place) (q : Byte × Instr), q ∈ forms p → (encode q.2).head? = some q.1 ∧ ∀ s : State,
    let c := addressCycles .write p s
    let t := (wr c.2 c.1 (v s.cpu)).withRegs (dmaAfter c.1 (v s.cpu) s.cpu) (remainingCycles .write p s)
    exec q.2 s = .next t ∧ (s.Inv → Stored c.1 (v s.cpu) s t)

/-- A read-modify-write instruction: the address cycles, the read, the old byte written back, the new byte written; the
registers are `g` of the old byte and of what they were (R184). -/
def RunsModify (forms : Place → List (Byte × Instr)) (g : Byte → Cpu → Byte × Cpu) : Prop :=
  ∀ (p : Place) (q : Byte × Instr), q ∈ forms p → (encode q.2).head? = some q.1 ∧ ∀ s : State,
    let c := addressCycles .modify p s
    let old := (rd c.2 c.1).1
    let new := (g old s.cpu).1
    let u := wr (wr (rd c.2 c.1).2 c.1 old) c.1 new
    let t := u.withRegs (dmaAfter c.1 new (g old s.cpu).2) (remainingCycles .modify p s)
    exec q.2 s = .next t ∧ (s.Inv → Stored c.1 new s t)

/-- A StoreHigh instruction with the register byte `r` (R259): where the index crosses a page the high byte of the address
is ANDed with `r`; the byte stored is `r` AND the base's high byte plus 1. `g` is what it does to the registers. -/
def RunsStoreHigh (forms : Place → List (Byte × Instr)) (r : Cpu → Byte) (g : Cpu → Cpu) : Prop :=
  ∀ (p : Place) (q : Byte × Instr), q ∈ forms p → (encode q.2).head? = some q.1 ∧ ∀ s : State,
    let ea := effectiveAddr p s
    let a := if crossed p s then wordOf (hiByte ea &&& r s.cpu) (loByte ea) else ea
    let v := r s.cpu &&& (hiByte (baseAddr p s) + 1)
    let u := wr (afterReads (addressReads .write p s) s) a v
    let t := u.withRegs (dmaAfter a v (g s.cpu)) (remainingCycles .write p s)
    exec q.2 s = .next t ∧ (s.Inv → Stored a v s t)

/-! ### Control flow and stack -/

/-- A conditional branch (R233): nothing where the condition is false; else the two or one dummy reads and the target,
`u16(PC + off)` with `off` signed. -/
def RunsBranch (op : Byte) (mk : Byte → Instr) (cond : Cpu → Bool) : Prop :=
  ∀ (off : Byte) (s : State), encode (mk off) = [op, off] ∧
    (cond s.cpu = false → exec (mk off) s = .next s) ∧
    (cond s.cpu = true →
      let target := BitVec.ofInt 16 (s.cpu.pc.toNat + off.toInt)
      let reads := [s.cpu.pc] ++
        if hiByte target = hiByte s.cpu.pc then [] else [wordOf (hiByte s.cpu.pc) (loByte target)]
      let t := (afterReads reads s).withRegs { s.cpu with pc := target } reads.length
      exec (mk off) s = .next t ∧ MemFrame s t)

/-- The cell of internal RAM at stack pointer `p`: the stack page is 0x0100..0x01FF (R33). -/
def stackCell (p : Byte) : Nat := 0x100 + p.toNat

/-- The word in the vector at `a`, through the cartridge; where nothing claims it, both bytes are the last byte `b` driven
onto the bus (R84, R92, R401). -/
def vectorWord (s : State) (a : Word) (b : Byte) : Word :=
  wordOf ((cpuRead s.cart (a + 1)).getD b) ((cpuRead s.cart a).getD b)

/-- The registers at the boundary `t` after a step whose `k` cycles end in `u` (R404, R40): the scratch cells are any. -/
def Cpu.ended (c : Cpu) (k : Nat) (u t : State) : Cpu := { c.spent k u with tick := 0, micro := t.cpu.micro }

/-- The state at the boundary that a step begins from: `tick` 0, the scratch cells dead (R40, R404). -/
def State.begun (s : State) : State := { s with cpu := { s.cpu with tick := 0, micro := .idle } }

/-- A boundary at which an instruction is fetched: not jammed, no NMI waiting, no unmasked IRQ (R404). -/
def Fetching (s : State) : Prop :=
  s.cpu.jammed = false ∧ s.cpu.nmiPending = false ∧ (irqLine s = false ∨ s.cpu.i = true)

/-- The stack after a word and, with `p`, a status byte: high byte first, each one cell lower (R33). -/
def Stacked (w : Word) (p : Option Byte) (s t : State) : Prop :=
  ∀ k, Cells.read t.ram k =
    if k = stackCell s.cpu.s then hiByte w
    else if k = stackCell (s.cpu.s - 1) then loByte w
    else match p with
      | some b => if k = stackCell (s.cpu.s - 2) then b else Cells.read s.ram k
      | none => Cells.read s.ram k

/-- Entry to a handler (R410): the NMI latch clear, `INT_CYCLES - 5` reads of PC, PC and the status byte with B = 0
stacked, `I` set, PC from the vector. -/
def EntersHandler (vector : Word) (s t : State) : Prop :=
  let p := packP s.cpu false
  let n := s.chip.intCycles.count
  let u := afterCycles
    (List.replicate (n - 5) (.read s.cpu.pc) ++
      [.write (stackAddr s.cpu.s) (hiByte s.cpu.pc), .write (stackAddr (s.cpu.s - 1)) (loByte s.cpu.pc),
        .write (stackAddr (s.cpu.s - 2)) p, .read vector, .read (vector + 1)])
    { s with cpu := { s.cpu with nmiPending := false } }
  t = { u with cpu := ({ s.cpu with
    s := s.cpu.s - 3, i := true, pc := vectorWord s vector p }).ended n u t } ∧
  StackOnly s t ∧ (s.Inv → Stacked s.cpu.pc (some p) s t)

/-! ### The forms of each instruction, with the opcode bytes of its Encoding table -/

/-- The forms of LDA: opcode and instruction (R200). -/
def ldaForms : Source → List (Byte × Instr)
  | .imm b => [(0xA9, .ldaImm b)]
  | .mem (.zp z) => [(0xA5, .ldaZp z)]
  | .mem (.zpx z) => [(0xB5, .ldaZpx z)]
  | .mem (.abs w) => [(0xAD, .ldaAbs w)]
  | .mem (.abx w) => [(0xBD, .ldaAbx w)]
  | .mem (.aby w) => [(0xB9, .ldaAby w)]
  | .mem (.izx z) => [(0xA1, .ldaIzx z)]
  | .mem (.izy z) => [(0xB1, .ldaIzy z)]
  | _ => []

/-- The forms of LDX: opcode and instruction (R201). -/
def ldxForms : Source → List (Byte × Instr)
  | .imm b => [(0xA2, .ldxImm b)]
  | .mem (.zp z) => [(0xA6, .ldxZp z)]
  | .mem (.zpy z) => [(0xB6, .ldxZpy z)]
  | .mem (.abs w) => [(0xAE, .ldxAbs w)]
  | .mem (.aby w) => [(0xBE, .ldxAby w)]
  | _ => []

/-- The forms of LDY: opcode and instruction (R202). -/
def ldyForms : Source → List (Byte × Instr)
  | .imm b => [(0xA0, .ldyImm b)]
  | .mem (.zp z) => [(0xA4, .ldyZp z)]
  | .mem (.zpx z) => [(0xB4, .ldyZpx z)]
  | .mem (.abs w) => [(0xAC, .ldyAbs w)]
  | .mem (.abx w) => [(0xBC, .ldyAbx w)]
  | _ => []

/-- The forms of ADC: opcode and instruction (R214). -/
def adcForms : Source → List (Byte × Instr)
  | .imm b => [(0x69, .adcImm b)]
  | .mem (.zp z) => [(0x65, .adcZp z)]
  | .mem (.zpx z) => [(0x75, .adcZpx z)]
  | .mem (.abs w) => [(0x6D, .adcAbs w)]
  | .mem (.abx w) => [(0x7D, .adcAbx w)]
  | .mem (.aby w) => [(0x79, .adcAby w)]
  | .mem (.izx z) => [(0x61, .adcIzx z)]
  | .mem (.izy z) => [(0x71, .adcIzy z)]
  | _ => []

/-- The forms of SBC, the unofficial 0xEB among them: opcode and instruction (R215, R272). -/
def sbcForms : Source → List (Byte × Instr)
  | .imm b => [(0xE9, .sbcImm b), (0xEB, .sbcImmEB b)]
  | .mem (.zp z) => [(0xE5, .sbcZp z)]
  | .mem (.zpx z) => [(0xF5, .sbcZpx z)]
  | .mem (.abs w) => [(0xED, .sbcAbs w)]
  | .mem (.abx w) => [(0xFD, .sbcAbx w)]
  | .mem (.aby w) => [(0xF9, .sbcAby w)]
  | .mem (.izx z) => [(0xE1, .sbcIzx z)]
  | .mem (.izy z) => [(0xF1, .sbcIzy z)]
  | _ => []

/-- The forms of AND: opcode and instruction (R216). -/
def andForms : Source → List (Byte × Instr)
  | .imm b => [(0x29, .andImm b)]
  | .mem (.zp z) => [(0x25, .andZp z)]
  | .mem (.zpx z) => [(0x35, .andZpx z)]
  | .mem (.abs w) => [(0x2D, .andAbs w)]
  | .mem (.abx w) => [(0x3D, .andAbx w)]
  | .mem (.aby w) => [(0x39, .andAby w)]
  | .mem (.izx z) => [(0x21, .andIzx z)]
  | .mem (.izy z) => [(0x31, .andIzy z)]
  | _ => []

/-- The forms of ORA: opcode and instruction (R217). -/
def oraForms : Source → List (Byte × Instr)
  | .imm b => [(0x09, .oraImm b)]
  | .mem (.zp z) => [(0x05, .oraZp z)]
  | .mem (.zpx z) => [(0x15, .oraZpx z)]
  | .mem (.abs w) => [(0x0D, .oraAbs w)]
  | .mem (.abx w) => [(0x1D, .oraAbx w)]
  | .mem (.aby w) => [(0x19, .oraAby w)]
  | .mem (.izx z) => [(0x01, .oraIzx z)]
  | .mem (.izy z) => [(0x11, .oraIzy z)]
  | _ => []

/-- The forms of EOR: opcode and instruction (R218). -/
def eorForms : Source → List (Byte × Instr)
  | .imm b => [(0x49, .eorImm b)]
  | .mem (.zp z) => [(0x45, .eorZp z)]
  | .mem (.zpx z) => [(0x55, .eorZpx z)]
  | .mem (.abs w) => [(0x4D, .eorAbs w)]
  | .mem (.abx w) => [(0x5D, .eorAbx w)]
  | .mem (.aby w) => [(0x59, .eorAby w)]
  | .mem (.izx z) => [(0x41, .eorIzx z)]
  | .mem (.izy z) => [(0x51, .eorIzy z)]
  | _ => []

/-- The forms of BIT: opcode and instruction (R219). -/
def bitForms : Source → List (Byte × Instr)
  | .mem (.zp z) => [(0x24, .bitZp z)]
  | .mem (.abs w) => [(0x2C, .bitAbs w)]
  | _ => []

/-- The forms of CMP: opcode and instruction (R220). -/
def cmpForms : Source → List (Byte × Instr)
  | .imm b => [(0xC9, .cmpImm b)]
  | .mem (.zp z) => [(0xC5, .cmpZp z)]
  | .mem (.zpx z) => [(0xD5, .cmpZpx z)]
  | .mem (.abs w) => [(0xCD, .cmpAbs w)]
  | .mem (.abx w) => [(0xDD, .cmpAbx w)]
  | .mem (.aby w) => [(0xD9, .cmpAby w)]
  | .mem (.izx z) => [(0xC1, .cmpIzx z)]
  | .mem (.izy z) => [(0xD1, .cmpIzy z)]
  | _ => []

/-- The forms of CPX: opcode and instruction (R221). -/
def cpxForms : Source → List (Byte × Instr)
  | .imm b => [(0xE0, .cpxImm b)]
  | .mem (.zp z) => [(0xE4, .cpxZp z)]
  | .mem (.abs w) => [(0xEC, .cpxAbs w)]
  | _ => []

/-- The forms of CPY: opcode and instruction (R222). -/
def cpyForms : Source → List (Byte × Instr)
  | .imm b => [(0xC0, .cpyImm b)]
  | .mem (.zp z) => [(0xC4, .cpyZp z)]
  | .mem (.abs w) => [(0xCC, .cpyAbs w)]
  | _ => []

/-- The forms of LAX: opcode and instruction (R265). -/
def laxForms : Source → List (Byte × Instr)
  | .mem (.zp z) => [(0xA7, .laxZp z)]
  | .mem (.zpy z) => [(0xB7, .laxZpy z)]
  | .mem (.abs w) => [(0xAF, .laxAbs w)]
  | .mem (.aby w) => [(0xBF, .laxAby w)]
  | .mem (.izx z) => [(0xA3, .laxIzx z)]
  | .mem (.izy z) => [(0xB3, .laxIzy z)]
  | _ => []

/-- The forms of LAS: opcode and instruction (R280). -/
def lasForms : Source → List (Byte × Instr)
  | .mem (.aby w) => [(0xBB, .lasAby w)]
  | _ => []

/-- The forms of ANC: opcode and instruction (R268). -/
def ancForms : Source → List (Byte × Instr)
  | .imm b => [(0x0B, .ancImm0B b), (0x2B, .ancImm2B b)]
  | _ => []

/-- The forms of ALR: opcode and instruction (R269). -/
def alrForms : Source → List (Byte × Instr)
  | .imm b => [(0x4B, .alrImm b)]
  | _ => []

/-- The forms of ARR: opcode and instruction (R270). -/
def arrForms : Source → List (Byte × Instr)
  | .imm b => [(0x6B, .arrImm b)]
  | _ => []

/-- The forms of AXS: opcode and instruction (R271). -/
def axsForms : Source → List (Byte × Instr)
  | .imm b => [(0xCB, .axsImm b)]
  | _ => []

/-- The forms of ANE: opcode and instruction (R274). -/
def aneForms : Source → List (Byte × Instr)
  | .imm b => [(0x8B, .aneImm b)]
  | _ => []

/-- The forms of LXA: opcode and instruction (R275). -/
def lxaForms : Source → List (Byte × Instr)
  | .imm b => [(0xAB, .lxaImm b)]
  | _ => []

/-- The forms of the NOPs with an operand: opcode and instruction (R273). -/
def nopForms : Source → List (Byte × Instr)
  | .imm b => [(0x80, .nopImm80 b), (0x82, .nopImm82 b), (0x89, .nopImm89 b), (0xC2, .nopImmC2 b), (0xE2, .nopImmE2 b)]
  | .mem (.zp z) => [(0x04, .nopZp04 z), (0x44, .nopZp44 z), (0x64, .nopZp64 z)]
  | .mem (.zpx z) => [(0x14, .nopZpx14 z), (0x34, .nopZpx34 z), (0x54, .nopZpx54 z), (0x74, .nopZpx74 z), (0xD4, .nopZpxD4 z), (0xF4, .nopZpxF4 z)]
  | .mem (.abs w) => [(0x0C, .nopAbs0C w)]
  | .mem (.abx w) => [(0x1C, .nopAbx1C w), (0x3C, .nopAbx3C w), (0x5C, .nopAbx5C w), (0x7C, .nopAbx7C w), (0xDC, .nopAbxDC w), (0xFC, .nopAbxFC w)]
  | _ => []

/-- The memory forms of STA: opcode and instruction (R203). -/
def staForms : Place → List (Byte × Instr)
  | .zp z => [(0x85, .staZp z)]
  | .zpx z => [(0x95, .staZpx z)]
  | .abs w => [(0x8D, .staAbs w)]
  | .abx w => [(0x9D, .staAbx w)]
  | .aby w => [(0x99, .staAby w)]
  | .izx z => [(0x81, .staIzx z)]
  | .izy z => [(0x91, .staIzy z)]
  | _ => []

/-- The memory forms of STX: opcode and instruction (R204). -/
def stxForms : Place → List (Byte × Instr)
  | .zp z => [(0x86, .stxZp z)]
  | .zpy z => [(0x96, .stxZpy z)]
  | .abs w => [(0x8E, .stxAbs w)]
  | _ => []

/-- The memory forms of STY: opcode and instruction (R205). -/
def styForms : Place → List (Byte × Instr)
  | .zp z => [(0x84, .styZp z)]
  | .zpx z => [(0x94, .styZpx z)]
  | .abs w => [(0x8C, .styAbs w)]
  | _ => []

/-- The memory forms of SAX: opcode and instruction (R264). -/
def saxForms : Place → List (Byte × Instr)
  | .zp z => [(0x87, .saxZp z)]
  | .zpy z => [(0x97, .saxZpy z)]
  | .abs w => [(0x8F, .saxAbs w)]
  | .izx z => [(0x83, .saxIzx z)]
  | _ => []

/-- The memory forms of INC: opcode and instruction (R223). -/
def incForms : Place → List (Byte × Instr)
  | .zp z => [(0xE6, .incZp z)]
  | .zpx z => [(0xF6, .incZpx z)]
  | .abs w => [(0xEE, .incAbs w)]
  | .abx w => [(0xFE, .incAbx w)]
  | _ => []

/-- The memory forms of DEC: opcode and instruction (R224). -/
def decForms : Place → List (Byte × Instr)
  | .zp z => [(0xC6, .decZp z)]
  | .zpx z => [(0xD6, .decZpx z)]
  | .abs w => [(0xCE, .decAbs w)]
  | .abx w => [(0xDE, .decAbx w)]
  | _ => []

/-- The memory forms of ASL: opcode and instruction (R229). -/
def aslForms : Place → List (Byte × Instr)
  | .zp z => [(0x06, .aslZp z)]
  | .zpx z => [(0x16, .aslZpx z)]
  | .abs w => [(0x0E, .aslAbs w)]
  | .abx w => [(0x1E, .aslAbx w)]
  | _ => []

/-- The memory forms of LSR: opcode and instruction (R230). -/
def lsrForms : Place → List (Byte × Instr)
  | .zp z => [(0x46, .lsrZp z)]
  | .zpx z => [(0x56, .lsrZpx z)]
  | .abs w => [(0x4E, .lsrAbs w)]
  | .abx w => [(0x5E, .lsrAbx w)]
  | _ => []

/-- The memory forms of ROL: opcode and instruction (R231). -/
def rolForms : Place → List (Byte × Instr)
  | .zp z => [(0x26, .rolZp z)]
  | .zpx z => [(0x36, .rolZpx z)]
  | .abs w => [(0x2E, .rolAbs w)]
  | .abx w => [(0x3E, .rolAbx w)]
  | _ => []

/-- The memory forms of ROR: opcode and instruction (R232). -/
def rorForms : Place → List (Byte × Instr)
  | .zp z => [(0x66, .rorZp z)]
  | .zpx z => [(0x76, .rorZpx z)]
  | .abs w => [(0x6E, .rorAbs w)]
  | .abx w => [(0x7E, .rorAbx w)]
  | _ => []

/-- The memory forms of SLO: opcode and instruction (R260). -/
def sloForms : Place → List (Byte × Instr)
  | .zp z => [(0x07, .sloZp z)]
  | .zpx z => [(0x17, .sloZpx z)]
  | .abs w => [(0x0F, .sloAbs w)]
  | .abx w => [(0x1F, .sloAbx w)]
  | .aby w => [(0x1B, .sloAby w)]
  | .izx z => [(0x03, .sloIzx z)]
  | .izy z => [(0x13, .sloIzy z)]
  | _ => []

/-- The memory forms of RLA: opcode and instruction (R261). -/
def rlaForms : Place → List (Byte × Instr)
  | .zp z => [(0x27, .rlaZp z)]
  | .zpx z => [(0x37, .rlaZpx z)]
  | .abs w => [(0x2F, .rlaAbs w)]
  | .abx w => [(0x3F, .rlaAbx w)]
  | .aby w => [(0x3B, .rlaAby w)]
  | .izx z => [(0x23, .rlaIzx z)]
  | .izy z => [(0x33, .rlaIzy z)]
  | _ => []

/-- The memory forms of SRE: opcode and instruction (R262). -/
def sreForms : Place → List (Byte × Instr)
  | .zp z => [(0x47, .sreZp z)]
  | .zpx z => [(0x57, .sreZpx z)]
  | .abs w => [(0x4F, .sreAbs w)]
  | .abx w => [(0x5F, .sreAbx w)]
  | .aby w => [(0x5B, .sreAby w)]
  | .izx z => [(0x43, .sreIzx z)]
  | .izy z => [(0x53, .sreIzy z)]
  | _ => []

/-- The memory forms of RRA: opcode and instruction (R263). -/
def rraForms : Place → List (Byte × Instr)
  | .zp z => [(0x67, .rraZp z)]
  | .zpx z => [(0x77, .rraZpx z)]
  | .abs w => [(0x6F, .rraAbs w)]
  | .abx w => [(0x7F, .rraAbx w)]
  | .aby w => [(0x7B, .rraAby w)]
  | .izx z => [(0x63, .rraIzx z)]
  | .izy z => [(0x73, .rraIzy z)]
  | _ => []

/-- The memory forms of DCP: opcode and instruction (R266). -/
def dcpForms : Place → List (Byte × Instr)
  | .zp z => [(0xC7, .dcpZp z)]
  | .zpx z => [(0xD7, .dcpZpx z)]
  | .abs w => [(0xCF, .dcpAbs w)]
  | .abx w => [(0xDF, .dcpAbx w)]
  | .aby w => [(0xDB, .dcpAby w)]
  | .izx z => [(0xC3, .dcpIzx z)]
  | .izy z => [(0xD3, .dcpIzy z)]
  | _ => []

/-- The memory forms of ISC: opcode and instruction (R267). -/
def iscForms : Place → List (Byte × Instr)
  | .zp z => [(0xE7, .iscZp z)]
  | .zpx z => [(0xF7, .iscZpx z)]
  | .abs w => [(0xEF, .iscAbs w)]
  | .abx w => [(0xFF, .iscAbx w)]
  | .aby w => [(0xFB, .iscAby w)]
  | .izx z => [(0xE3, .iscIzx z)]
  | .izy z => [(0xF3, .iscIzy z)]
  | _ => []

/-- The memory forms of SHA: opcode and instruction (R276). -/
def shaForms : Place → List (Byte × Instr)
  | .aby w => [(0x9F, .shaAby w)]
  | .izy z => [(0x93, .shaIzy z)]
  | _ => []

/-- The memory forms of SHX: opcode and instruction (R277). -/
def shxForms : Place → List (Byte × Instr)
  | .aby w => [(0x9E, .shxAby w)]
  | _ => []

/-- The memory forms of SHY: opcode and instruction (R278). -/
def shyForms : Place → List (Byte × Instr)
  | .abx w => [(0x9C, .shyAbx w)]
  | _ => []

/-- The memory forms of TAS: opcode and instruction (R279). -/
def tasForms : Place → List (Byte × Instr)
  | .aby w => [(0x9B, .tasAby w)]
  | _ => []

/-- `CYCLES` and the most that `PAGE_PENALTY` or a taken branch adds, by opcode byte, in the rows of R150's table. -/
def cycleRows : List (List (Nat × Nat)) :=
  [[(7, 0), (6, 0), (2, 0), (8, 0), (3, 0), (3, 0), (5, 0), (5, 0),
    (3, 0), (2, 0), (2, 0), (2, 0), (4, 0), (4, 0), (6, 0), (6, 0)],
   [(2, 2), (5, 1), (2, 0), (8, 0), (4, 0), (4, 0), (6, 0), (6, 0),
    (2, 0), (4, 1), (2, 0), (7, 0), (4, 1), (4, 1), (7, 0), (7, 0)],
   [(6, 0), (6, 0), (2, 0), (8, 0), (3, 0), (3, 0), (5, 0), (5, 0),
    (4, 0), (2, 0), (2, 0), (2, 0), (4, 0), (4, 0), (6, 0), (6, 0)],
   [(2, 2), (5, 1), (2, 0), (8, 0), (4, 0), (4, 0), (6, 0), (6, 0),
    (2, 0), (4, 1), (2, 0), (7, 0), (4, 1), (4, 1), (7, 0), (7, 0)],
   [(6, 0), (6, 0), (2, 0), (8, 0), (3, 0), (3, 0), (5, 0), (5, 0),
    (3, 0), (2, 0), (2, 0), (2, 0), (3, 0), (4, 0), (6, 0), (6, 0)],
   [(2, 2), (5, 1), (2, 0), (8, 0), (4, 0), (4, 0), (6, 0), (6, 0),
    (2, 0), (4, 1), (2, 0), (7, 0), (4, 1), (4, 1), (7, 0), (7, 0)],
   [(6, 0), (6, 0), (2, 0), (8, 0), (3, 0), (3, 0), (5, 0), (5, 0),
    (4, 0), (2, 0), (2, 0), (2, 0), (5, 0), (4, 0), (6, 0), (6, 0)],
   [(2, 2), (5, 1), (2, 0), (8, 0), (4, 0), (4, 0), (6, 0), (6, 0),
    (2, 0), (4, 1), (2, 0), (7, 0), (4, 1), (4, 1), (7, 0), (7, 0)],
   [(2, 0), (6, 0), (2, 0), (6, 0), (3, 0), (3, 0), (3, 0), (3, 0),
    (2, 0), (2, 0), (2, 0), (2, 0), (4, 0), (4, 0), (4, 0), (4, 0)],
   [(2, 2), (6, 0), (2, 0), (6, 0), (4, 0), (4, 0), (4, 0), (4, 0),
    (2, 0), (5, 0), (2, 0), (5, 0), (5, 0), (5, 0), (5, 0), (5, 0)],
   [(2, 0), (6, 0), (2, 0), (6, 0), (3, 0), (3, 0), (3, 0), (3, 0),
    (2, 0), (2, 0), (2, 0), (2, 0), (4, 0), (4, 0), (4, 0), (4, 0)],
   [(2, 2), (5, 1), (2, 0), (5, 1), (4, 0), (4, 0), (4, 0), (4, 0),
    (2, 0), (4, 1), (2, 0), (4, 1), (4, 1), (4, 1), (4, 1), (4, 1)],
   [(2, 0), (6, 0), (2, 0), (8, 0), (3, 0), (3, 0), (5, 0), (5, 0),
    (2, 0), (2, 0), (2, 0), (2, 0), (4, 0), (4, 0), (6, 0), (6, 0)],
   [(2, 2), (5, 1), (2, 0), (8, 0), (4, 0), (4, 0), (6, 0), (6, 0),
    (2, 0), (4, 1), (2, 0), (7, 0), (4, 1), (4, 1), (7, 0), (7, 0)],
   [(2, 0), (6, 0), (2, 0), (8, 0), (3, 0), (3, 0), (5, 0), (5, 0),
    (2, 0), (2, 0), (2, 0), (2, 0), (4, 0), (4, 0), (6, 0), (6, 0)],
   [(2, 2), (5, 1), (2, 0), (8, 0), (4, 0), (4, 0), (6, 0), (6, 0),
    (2, 0), (4, 1), (2, 0), (7, 0), (4, 1), (4, 1), (7, 0), (7, 0)]]

/-- The entry of an opcode byte. -/
def cycleEntry (op : Byte) : Nat × Nat := (cycleRows.getD (op.toNat / 16) []).getD (op.toNat % 16) (0, 0)

/-! ### The boundary -/

/-- An instruction boundary: no cycle of a step in progress, no DMA waiting, the scratch cells dead (R40). -/
structure State.AtBoundary (s : State) : Prop where
  tick    : s.cpu.tick = 0
  dmaPage : s.cpu.dmaPage = none
  micro   : s.cpu.micro = .idle

end Sys2Proof.Machine
end

