-- ==== Sys2Proof/Certificates/Slice0/Obligations.lean ====
section
/-! DEFINITION. The statements for the provers, from the numbered rules of spec/, in the order of its files: encoding,
operands, instructions, interrupts and the step, the bus, the Picture Unit, the Audio Unit, the Mapper, the host.

`RunsRead`, `RunsStore`, `RunsModify`, `RunsImplied`, `RunsStoreHigh` and `RunsBranch` (Safety.lean) each say that every
form of a table has its opcode byte, that `exec` answers a next state for every operand and every state, what that state
is, and what it leaves unchanged. `exec` runs after the step has fetched the instruction's bytes: the cycles counted there
are the rest (log 6). -/

open Sys2Proof Sys2Proof.Machine

/-! ### Encoding (30_encoding.md) -/

/-- Words written out from the opcode map (R144), one or more for each family, decode to the instructions they stand for. The
last clause, that a byte string ending within an instruction is refused by name, is the model's own (log 16): the spec's
decoding reads every byte it needs and cannot fail (R141). -/
def Obligations.DecodingOfWrittenWords : Prop :=
  decode [0xA9, 0x42] = .ok (.ldaImm 0x42, []) ∧
  decode [0x9D, 0x34, 0x12, 0xEA] = .ok (.staAbx 0x1234, [0xEA]) ∧
  decode [0xBA] = .ok (.tsx, []) ∧
  decode [0x71, 0x80] = .ok (.adcIzy 0x80, []) ∧
  decode [0xE4, 0x10] = .ok (.cpxZp 0x10, []) ∧
  decode [0x7E, 0x01, 0x80] = .ok (.rorAbx 0x8001, []) ∧
  decode [0x6C, 0xFF, 0x12] = .ok (.jmpInd 0x12FF, []) ∧
  decode [0x20, 0x00, 0xC0] = .ok (.jsrAbs 0xC000, []) ∧
  decode [0xD0, 0xFE] = .ok (.bneRel 0xFE, []) ∧
  decode [0x00, 0x60] = .ok (.brk, [0x60]) ∧
  decode [0x28] = .ok (.plp, []) ∧
  decode [0xEB, 0x05] = .ok (.sbcImmEB 0x05, []) ∧
  decode [0x93, 0x7F] = .ok (.shaIzy 0x7F, []) ∧
  decode [0xF2] = .ok (.jamF2, []) ∧
  decode [0x6C, 0xFF] = .error .noSecondOperand

/-- Decode and encode agree, both ways: an instruction is read back from its bytes, and the bytes read are those of the
instruction; no operand bit is dropped (R140 to R142). -/
def Obligations.DecodeEncodeRoundTrip : Prop :=
  (∀ (i : Instr) (rest : List Byte), i.wf = true → decode (encode i ++ rest) = .ok (i, rest)) ∧
  (∀ (bytes rest : List Byte) (i : Instr), decode bytes = .ok (i, rest) → bytes = encode i ++ rest) ∧
  (∀ op b1 b2 : Byte, ∃ i rest, decode [op, b1, b2] = .ok (i, rest))

/-! ### Fetch (30_encoding.md R140, 60_exceptions.md R404) -/

/-- At a boundary that fetches, the step is `exec` of the instruction that the bytes read at PC decode to, at the state
after those reads, then the DMA it asked for and the return to the boundary, with the scratch cells cleared, the model's
choice (log 7). The third byte of a JSR is the one its last cycle reads (log 6). -/
def Obligations.StepRunsTheDecodedInstruction : Prop :=
  (∀ s : State, (fetch s).1 = peek s s.cpu.pc ∧
    (fetch s).2.cpu = ({ s.cpu with pc := s.cpu.pc + 1 }).spent 1 (fetch s).2 ∧ MemFrame s (fetch s).2) ∧
  ∀ s : State, Fetching s →
    let s0 := s.begun
    let s1 := (fetch s0).2
    let s2 := (fetch s1).2
    let s3 := (fetch s2).2
    let b0 := peek s0 s0.cpu.pc
    let b1 := peek s1 s1.cpu.pc
    let b2 := if b0 = 0x20 then jsrHighByte s2 else peek s2 s2.cpu.pc
    ∀ (i : Instr) (rest : List Byte), decode [b0, b1, b2] = .ok (i, rest) →
      step s = mapNext (fun t => (attachedDma t).begun)
        (exec i (if (encode i).length = 1 then s1 else if (encode i).length = 2 ∨ b0 = 0x20 then s2 else s3))

/-- The same with the bytes in internal RAM outside the stack page: the instruction there runs, PC past it (a JSR: at its
third byte), no memory changed by the fetch. The division of fetch and `exec` and the cleared scratch cells are the model's
choice (log 6, log 7). -/
def Obligations.StepRunsTheInstructionInRam : Prop :=
  ∀ (s : State) (i : Instr) (rest : List Byte), Fetching s → fetchesFromRam s.cpu.pc = true →
    decode ((List.range 3).map fun k => Cells.read s.ram (ramIndex s.cpu.pc + k)) = .ok (i, rest) →
    let n := if Cells.read s.ram (ramIndex s.cpu.pc) = 0x20 then 2 else (encode i).length
    ∃ f : State, f.cpu = ({ s.begun.cpu with pc := s.cpu.pc + BitVec.ofNat 16 n }).spent n f ∧ MemFrame s f ∧
      step s = mapNext (fun t => (attachedDma t).begun) (exec i f)

/-- `CYCLES[b]` and `PAGE_PENALTY[b]` for every opcode byte (R150): from the opcode fetch to the end of the instruction,
the bus cycles lie between the table's count and the count with its penalty. -/
def Obligations.CyclesOfEveryOpcode : Prop :=
  ∀ s : State, ∃ u, exec (fetchInstr s).1 (fetchInstr s).2 = .next u ∧
    s.cpu.cycles + (cycleEntry (peek s s.cpu.pc)).1 ≤ u.cpu.cycles ∧
    u.cpu.cycles ≤ s.cpu.cycles + (cycleEntry (peek s s.cpu.pc)).1 + (cycleEntry (peek s s.cpu.pc)).2

/-! ### Operands (40_addressing_modes.md) -/

/-- The address cycles of every mode and kind: the effective address, from the registers and the RAM of the state before,
and exactly the listed reads in their order (R172 to R181). Then the access cycles (R183 to R185): one read, one write, or
the read, the old byte written back and the new byte written. An immediate byte takes no cycle here: that the step, and
not `exec`, performs the fetch cycles of R171 to R181 is the model's choice (log 6). -/
def Obligations.AddressCyclesOfEveryMode : Prop :=
  (∀ (k : Kind) (p : Place) (s : State),
    addressCycles k p s = (effectiveAddr p s, afterReads (addressReads k p s) s)) ∧
  (∀ (b : Byte) (s : State), readOperand (.imm b) s = (b, s)) ∧
  ∀ (p : Place) (s : State) (v : Byte) (f : Byte → Byte),
    let ea := effectiveAddr p s
    let old := peek (afterReads (addressReads .modify p s) s) ea
    readOperand (.mem p) s =
      (peek (afterReads (addressReads .read p s) s) ea, afterReads (addressReads .read p s ++ [ea]) s) ∧
    writeOperand p v s = wr (afterReads (addressReads .write p s) s) ea v ∧
    modifyOperand p f s =
      (old, wr (wr (afterReads (addressReads .modify p s ++ [ea]) s) ea old) ea (f old))

/-- A page is crossed exactly where the high byte of the sum differs from that of the base (R186); and the cycles of an
operand read, a store and a read-modify-write, with the instruction's bytes, are the table of R187. -/
def Obligations.PageCrossingAndCycleTable : Prop :=
  (∀ (base : Word) (index : Byte),
    crossesPage base index = true ↔ hiByte (base + index.setWidth 16) ≠ hiByte base) ∧
  ∀ (p : Place) (s : State) (v : Byte) (f : Byte → Byte),
    (readOperand (.mem p) s).2.cpu.cycles + p.length = s.cpu.cycles + totalCycles .read p (crossed p s) ∧
    (writeOperand p v s).cpu.cycles + p.length = s.cpu.cycles + totalCycles .write p (crossed p s) ∧
    (modifyOperand p f s).2.cpu.cycles + p.length = s.cpu.cycles + totalCycles .modify p (crossed p s)

/-! ### Load, store, transfer (41_load_store_transfer.md) -/

/-- LDA, LDX, LDY (R200 to R202): the register takes the operand byte, `Z` and `N` follow it, nothing else changes. -/
def Obligations.LoadsSetRegisterAndFlags : Prop :=
  RunsRead ldaForms (fun m c => { c with a := m, z := m == 0, n := m.getLsbD 7 }) ∧
  RunsRead ldxForms (fun m c => { c with x := m, z := m == 0, n := m.getLsbD 7 }) ∧
  RunsRead ldyForms (fun m c => { c with y := m, z := m == 0, n := m.getLsbD 7 })

/-- STA, STX, STY (R203 to R205, R185): one byte stored at the effective address, no register or flag changed. -/
def Obligations.StoresWriteTheRegister : Prop :=
  RunsStore staForms (fun c => c.a) ∧ RunsStore stxForms (fun c => c.x) ∧ RunsStore styForms (fun c => c.y)

/-- TAX, TAY, TXA, TYA, TSX, TXS (R206 to R211): TXS alone leaves the flags. -/
def Obligations.TransfersCopyARegister : Prop :=
  RunsImplied 0xAA .tax (fun c => { c with x := c.a, z := c.a == 0, n := c.a.getLsbD 7 }) ∧
  RunsImplied 0xA8 .tay (fun c => { c with y := c.a, z := c.a == 0, n := c.a.getLsbD 7 }) ∧
  RunsImplied 0x8A .txa (fun c => { c with a := c.x, z := c.x == 0, n := c.x.getLsbD 7 }) ∧
  RunsImplied 0x98 .tya (fun c => { c with a := c.y, z := c.y == 0, n := c.y.getLsbD 7 }) ∧
  RunsImplied 0xBA .tsx (fun c => { c with x := c.s, z := c.s == 0, n := c.s.getLsbD 7 }) ∧
  RunsImplied 0x9A .txs (fun c => { c with s := c.x })

/-! ### Arithmetic and logic (42_arithmetic_logic.md) -/

/-- ADC (R214, R212): the exact sum; carry where it passes 255, overflow where the signed sum leaves -128..127; the decimal
flag takes no part. -/
def Obligations.AdcAddsExactly : Prop :=
  RunsRead adcForms (fun m c =>
    let sum := c.a.toNat + m.toNat + c.c.toNat
    let signed := c.a.toInt + m.toInt + (c.c.toNat : Int)
    { c with
      a := BitVec.ofNat 8 sum, c := decide (0xFF < sum), v := decide (signed < -128 ∨ 127 < signed)
      z := decide (sum % 0x100 = 0), n := decide (0x80 ≤ sum % 0x100) })

/-- SBC and the unofficial 0xEB (R215, R272): the exact difference with the borrow; carry where no borrow occurred,
overflow where the signed difference leaves -128..127. -/
def Obligations.SbcSubtractsExactly : Prop :=
  RunsRead sbcForms (fun m c =>
    let borrow : Int := if c.c then 0 else 1
    let diff := (c.a.toNat : Int) - m.toNat - borrow
    let signed := c.a.toInt - m.toInt - borrow
    { c with
      a := BitVec.ofInt 8 diff, c := decide (0 ≤ diff), v := decide (signed < -128 ∨ 127 < signed)
      z := decide (diff % 0x100 = 0), n := decide (0x80 ≤ diff % 0x100) })

/-- AND, ORA, EOR and BIT (R216 to R219). -/
def Obligations.LogicSetsAccumulatorAndFlags : Prop :=
  RunsRead andForms (fun m c => { c with a := c.a &&& m, z := (c.a &&& m) == 0, n := (c.a &&& m).getLsbD 7 }) ∧
  RunsRead oraForms (fun m c => { c with a := c.a ||| m, z := (c.a ||| m) == 0, n := (c.a ||| m).getLsbD 7 }) ∧
  RunsRead eorForms (fun m c => { c with a := c.a ^^^ m, z := (c.a ^^^ m) == 0, n := (c.a ^^^ m).getLsbD 7 }) ∧
  RunsRead bitForms (fun m c => { c with z := (c.a &&& m) == 0, n := m.getLsbD 7, v := m.getLsbD 6 })

/-- CMP, CPX, CPY (R220 to R222, R213): an unsigned comparison in C, equality in Z, bit 7 of the difference in N; no
register, and not V. -/
def Obligations.ComparesSetThreeFlags : Prop :=
  RunsRead cmpForms (fun m c => { c with c := decide (m.toNat ≤ c.a.toNat), z := c.a == m, n := (c.a - m).getLsbD 7 }) ∧
  RunsRead cpxForms (fun m c => { c with c := decide (m.toNat ≤ c.x.toNat), z := c.x == m, n := (c.x - m).getLsbD 7 }) ∧
  RunsRead cpyForms (fun m c => { c with c := decide (m.toNat ≤ c.y.toNat), z := c.y == m, n := (c.y - m).getLsbD 7 })

/-- INC, DEC, INX, INY, DEX, DEY (R223 to R228): modulo 256, Z and N from the result, C and V untouched. -/
def Obligations.IncrementsAndDecrements : Prop :=
  RunsModify incForms (fun m c => (m + 1, { c with z := m + 1 == 0, n := (m + 1).getLsbD 7 })) ∧
  RunsModify decForms (fun m c => (m - 1, { c with z := m - 1 == 0, n := (m - 1).getLsbD 7 })) ∧
  RunsImplied 0xE8 .inx (fun c => { c with x := c.x + 1, z := c.x + 1 == 0, n := (c.x + 1).getLsbD 7 }) ∧
  RunsImplied 0xC8 .iny (fun c => { c with y := c.y + 1, z := c.y + 1 == 0, n := (c.y + 1).getLsbD 7 }) ∧
  RunsImplied 0xCA .dex (fun c => { c with x := c.x - 1, z := c.x - 1 == 0, n := (c.x - 1).getLsbD 7 }) ∧
  RunsImplied 0x88 .dey (fun c => { c with y := c.y - 1, z := c.y - 1 == 0, n := (c.y - 1).getLsbD 7 })

/-! ### Shift and rotate (43_shift_rotate.md) -/

/-- ASL, LSR, ROL, ROR on memory and on the accumulator (R229 to R232), as arithmetic on 0..255: doubled or halved, the bit
that leaves in C, the old C entering a rotate. -/
def Obligations.ShiftsAndRotates : Prop :=
  RunsModify aslForms (fun m c =>
    let r := BitVec.ofNat 8 (2 * m.toNat)
    (r, { c with c := decide (128 ≤ m.toNat), z := r == 0, n := r.getLsbD 7 })) ∧
  RunsModify lsrForms (fun m c =>
    let r := BitVec.ofNat 8 (m.toNat / 2)
    (r, { c with c := decide (m.toNat % 2 = 1), z := r == 0, n := false })) ∧
  RunsModify rolForms (fun m c =>
    let r := BitVec.ofNat 8 (2 * m.toNat + c.c.toNat)
    (r, { c with c := decide (128 ≤ m.toNat), z := r == 0, n := r.getLsbD 7 })) ∧
  RunsModify rorForms (fun m c =>
    let r := BitVec.ofNat 8 (m.toNat / 2 + 128 * c.c.toNat)
    (r, { c with c := decide (m.toNat % 2 = 1), z := r == 0, n := c.c })) ∧
  RunsImplied 0x0A .aslAcc (fun c =>
    let r := BitVec.ofNat 8 (2 * c.a.toNat)
    { c with a := r, c := decide (128 ≤ c.a.toNat), z := r == 0, n := r.getLsbD 7 }) ∧
  RunsImplied 0x4A .lsrAcc (fun c =>
    let r := BitVec.ofNat 8 (c.a.toNat / 2)
    { c with a := r, c := decide (c.a.toNat % 2 = 1), z := r == 0, n := false }) ∧
  RunsImplied 0x2A .rolAcc (fun c =>
    let r := BitVec.ofNat 8 (2 * c.a.toNat + c.c.toNat)
    { c with a := r, c := decide (128 ≤ c.a.toNat), z := r == 0, n := r.getLsbD 7 }) ∧
  RunsImplied 0x6A .rorAcc (fun c =>
    let r := BitVec.ofNat 8 (c.a.toNat / 2 + 128 * c.c.toNat)
    { c with a := r, c := decide (c.a.toNat % 2 = 1), z := r == 0, n := c.c })

/-! ### Control flow (44_control_flow.md) -/

/-- JMP (R234): the absolute form sets PC; the indirect form reads its target without a carry into the pointer's high
byte, in two cycles. -/
def Obligations.JumpsSetPc : Prop :=
  (∀ (w : Word) (s : State), encode (.jmpAbs w) = [0x4C, loByte w, hiByte w] ∧
    exec (.jmpAbs w) s = .next { s with cpu := { s.cpu with pc := w } }) ∧
  (∀ (ptr : Word) (s : State), encode (.jmpInd ptr) = [0x6C, loByte ptr, hiByte ptr] ∧
    let p2 := wordOf (hiByte ptr) (loByte ptr + 1)
    let target := wordOf (peek (afterReads [ptr] s) p2) (peek s ptr)
    let t := (afterReads [ptr, p2] s).withRegs { s.cpu with pc := target } 2
    exec (.jmpInd ptr) s = .next t ∧ MemFrame s t)

/-- JSR (R235), PC being the address of its third byte: the dummy stack read, that address stacked, high byte first, the
third byte read, and PC the target. -/
def Obligations.JsrStacksTheReturnAddress : Prop :=
  ∀ (w : Word) (s : State), encode (.jsrAbs w) = [0x20, loByte w, hiByte w] ∧
    let u := afterCycles
      [.read (stackAddr s.cpu.s), .write (stackAddr s.cpu.s) (hiByte s.cpu.pc),
        .write (stackAddr (s.cpu.s - 1)) (loByte s.cpu.pc), .read s.cpu.pc] s
    let t := u.withRegs { s.cpu with pc := w, s := s.cpu.s - 2 } 4
    exec (.jsrAbs w) s = .next t ∧ StackOnly s t ∧ (s.Inv → Stacked s.cpu.pc none s t)

/-- RTS (R236) and RTI (R246): the two dummy reads, the word pulled, plus one for RTS alone after a read there; RTI pulls the
flags first. No memory changes. -/
def Obligations.ReturnsPullPc : Prop :=
  (encode .rts = [0x60] ∧ ∀ s : State,
    let w := wordOf (Cells.read s.ram (stackCell (s.cpu.s + 2))) (Cells.read s.ram (stackCell (s.cpu.s + 1)))
    let u := afterReads
      [s.cpu.pc, stackAddr s.cpu.s, stackAddr (s.cpu.s + 1), stackAddr (s.cpu.s + 2), w] s
    let t := u.withRegs { s.cpu with s := s.cpu.s + 2, pc := w + 1 } 5
    exec .rts s = .next t ∧ MemFrame s t) ∧
  (encode .rti = [0x40] ∧ ∀ s : State,
    let p := Cells.read s.ram (stackCell (s.cpu.s + 1))
    let w := wordOf (Cells.read s.ram (stackCell (s.cpu.s + 3))) (Cells.read s.ram (stackCell (s.cpu.s + 2)))
    let u := afterReads
      [s.cpu.pc, stackAddr s.cpu.s, stackAddr (s.cpu.s + 1), stackAddr (s.cpu.s + 2), stackAddr (s.cpu.s + 3)] s
    let t := u.withRegs { s.cpu with
      n := p.getLsbD 7, v := p.getLsbD 6, d := p.getLsbD 3, i := p.getLsbD 2, z := p.getLsbD 1, c := p.getLsbD 0
      s := s.cpu.s + 3, pc := w } 5
    exec .rti s = .next t ∧ MemFrame s t)

/-- The eight conditional branches (R237 to R244, R233). -/
def Obligations.BranchesTakeTheirTarget : Prop :=
  RunsBranch 0x90 .bccRel (fun c => !c.c) ∧ RunsBranch 0xB0 .bcsRel (fun c => c.c) ∧
  RunsBranch 0xF0 .beqRel (fun c => c.z) ∧ RunsBranch 0xD0 .bneRel (fun c => !c.z) ∧
  RunsBranch 0x30 .bmiRel (fun c => c.n) ∧ RunsBranch 0x10 .bplRel (fun c => !c.n) ∧
  RunsBranch 0x50 .bvcRel (fun c => !c.v) ∧ RunsBranch 0x70 .bvsRel (fun c => c.v)

/-- BRK (R245): the padding byte read, the address after it and the status byte with B = 1 stacked, `I` set after that, PC from
the vector 0xFFFE; six cycles after the opcode fetch. -/
def Obligations.BrkEntersTheHandler : Prop :=
  encode .brk = [0x00] ∧ ∀ s : State,
    let p := packP s.cpu true
    let u := afterCycles
      [.read s.cpu.pc, .write (stackAddr s.cpu.s) (hiByte (s.cpu.pc + 1)),
        .write (stackAddr (s.cpu.s - 1)) (loByte (s.cpu.pc + 1)), .write (stackAddr (s.cpu.s - 2)) p,
        .read 0xFFFE, .read 0xFFFF] s
    let t := u.withRegs { s.cpu with s := s.cpu.s - 3, i := true, pc := vectorWord s 0xFFFE p } 6
    exec .brk s = .next t ∧ StackOnly s t ∧ (s.Inv → Stacked (s.cpu.pc + 1) (some p) s t)

/-! ### Stack, flags, no-operation (45_stack_flags_nop.md, 10_state.md) -/

/-- The status byte (R38): where each flag lies, bit 5 always 1, bit 4 the B of the push; unpacking ignores both and gives
every flag back. -/
def Obligations.StatusByteLayout : Prop :=
  (∀ (c : Cpu) (b : Bool), (packP c b).toNat =
    128 * c.n.toNat + 64 * c.v.toNat + 32 + 16 * b.toNat + 8 * c.d.toNat + 4 * c.i.toNat + 2 * c.z.toNat + c.c.toNat) ∧
  (∀ (c c' : Cpu) (b : Bool), unpackP (packP c b) c' =
    { c' with n := c.n, v := c.v, d := c.d, i := c.i, z := c.z, c := c.c }) ∧
  (∀ (v : Byte) (c : Cpu), unpackP (v ^^^ 0x30) c = unpackP v c)

/-- PHA and PHP (R247, R248): one byte at the old stack pointer, PHP with B = 1, S one lower. PLA and PLP (R249, R250): S one
higher, the byte there into A with Z and N, or into the six flags. -/
def Obligations.PushesAndPulls : Prop :=
  (∀ (op : Byte) (i : Instr) (v : Cpu → Byte),
    (op, i, v) ∈ [((0x48 : Byte), Instr.pha, fun c : Cpu => c.a), (0x08, .php, fun c => packP c true)] →
    encode i = [op] ∧ ∀ s : State,
      let u := afterCycles [.read s.cpu.pc, .write (stackAddr s.cpu.s) (v s.cpu)] s
      let t := u.withRegs { s.cpu with s := s.cpu.s - 1 } 2
      exec i s = .next t ∧ StackOnly s t ∧
      (s.Inv → ∀ k, Cells.read t.ram k = if k = stackCell s.cpu.s then v s.cpu else Cells.read s.ram k)) ∧
  (encode .pla = [0x68] ∧ encode .plp = [0x28] ∧ ∀ s : State,
    let m := Cells.read s.ram (stackCell (s.cpu.s + 1))
    let u := afterReads [s.cpu.pc, stackAddr s.cpu.s, stackAddr (s.cpu.s + 1)] s
    let t := u.withRegs { s.cpu with s := s.cpu.s + 1, a := m, z := m == 0, n := m.getLsbD 7 } 3
    let t' := u.withRegs { s.cpu with
      s := s.cpu.s + 1
      n := m.getLsbD 7, v := m.getLsbD 6, d := m.getLsbD 3, i := m.getLsbD 2, z := m.getLsbD 1, c := m.getLsbD 0 } 3
    exec .pla s = .next t ∧ MemFrame s t ∧ exec .plp s = .next t' ∧ MemFrame s t')

/-- CLC, SEC, CLI, SEI, CLD, SED, CLV (R251 to R257): one flag each. -/
def Obligations.FlagInstructionsSetOneFlag : Prop :=
  RunsImplied 0x18 .clc (fun c => { c with c := false }) ∧ RunsImplied 0x38 .sec (fun c => { c with c := true }) ∧
  RunsImplied 0x58 .cli (fun c => { c with i := false }) ∧ RunsImplied 0x78 .sei (fun c => { c with i := true }) ∧
  RunsImplied 0xD8 .cld (fun c => { c with d := false }) ∧ RunsImplied 0xF8 .sed (fun c => { c with d := true }) ∧
  RunsImplied 0xB8 .clv (fun c => { c with v := false })

/-- NOP and the 27 unofficial no-operations (R258, R273): the reads happen, no register or flag changes. -/
def Obligations.NopsChangeNothing : Prop :=
  RunsImplied 0xEA .nop id ∧ RunsImplied 0x1A .nopImp1A id ∧ RunsImplied 0x3A .nopImp3A id ∧
  RunsImplied 0x5A .nopImp5A id ∧ RunsImplied 0x7A .nopImp7A id ∧ RunsImplied 0xDA .nopImpDA id ∧
  RunsImplied 0xFA .nopImpFA id ∧ RunsRead nopForms (fun _ c => c)

/-! ### Unofficial opcodes (46_unofficial.md) -/

/-- SLO, RLA, SRE, RRA (R260 to R263): the shift of memory, its carry, and the operation of A with the byte stored; RRA
adds with the carry that its rotate gave. -/
def Obligations.ShiftAndOperate : Prop :=
  RunsModify sloForms (fun m c =>
    let r := BitVec.ofNat 8 (2 * m.toNat)
    (r, { c with a := c.a ||| r, c := decide (128 ≤ m.toNat), z := (c.a ||| r) == 0, n := (c.a ||| r).getLsbD 7 })) ∧
  RunsModify rlaForms (fun m c =>
    let r := BitVec.ofNat 8 (2 * m.toNat + c.c.toNat)
    (r, { c with a := c.a &&& r, c := decide (128 ≤ m.toNat), z := (c.a &&& r) == 0, n := (c.a &&& r).getLsbD 7 })) ∧
  RunsModify sreForms (fun m c =>
    let r := BitVec.ofNat 8 (m.toNat / 2)
    (r, { c with a := c.a ^^^ r, c := decide (m.toNat % 2 = 1), z := (c.a ^^^ r) == 0, n := (c.a ^^^ r).getLsbD 7 })) ∧
  RunsModify rraForms (fun m c =>
    let r := BitVec.ofNat 8 (m.toNat / 2 + 128 * c.c.toNat)
    let sum := c.a.toNat + r.toNat + m.toNat % 2
    let signed := c.a.toInt + r.toInt + ((m.toNat % 2 : Nat) : Int)
    (r, { c with
      a := BitVec.ofNat 8 sum, c := decide (0xFF < sum), v := decide (signed < -128 ∨ 127 < signed)
      z := decide (sum % 0x100 = 0), n := decide (0x80 ≤ sum % 0x100) }))

/-- DCP and ISC (R266, R267): memory decremented and compared with A; memory incremented and subtracted from A. -/
def Obligations.CountAndOperate : Prop :=
  RunsModify dcpForms (fun m c =>
    let r := m - 1
    (r, { c with c := decide (r.toNat ≤ c.a.toNat), z := c.a == r, n := (c.a - r).getLsbD 7 })) ∧
  RunsModify iscForms (fun m c =>
    let r := m + 1
    let borrow : Int := if c.c then 0 else 1
    let diff := (c.a.toNat : Int) - r.toNat - borrow
    let signed := c.a.toInt - r.toInt - borrow
    (r, { c with
      a := BitVec.ofInt 8 diff, c := decide (0 ≤ diff), v := decide (signed < -128 ∨ 127 < signed)
      z := decide (diff % 0x100 = 0), n := decide (0x80 ≤ diff % 0x100) }))

/-- SAX, LAX and LAS (R264, R265, R280). -/
def Obligations.UnofficialLoadsAndStores : Prop :=
  RunsStore saxForms (fun c => c.a &&& c.x) ∧
  RunsRead laxForms (fun m c => { c with a := m, x := m, z := m == 0, n := m.getLsbD 7 }) ∧
  RunsRead lasForms (fun m c =>
    { c with a := m &&& c.s, x := m &&& c.s, s := m &&& c.s, z := (m &&& c.s) == 0, n := (m &&& c.s).getLsbD 7 })

/-- ANC (two opcodes), ALR, ARR, AXS (R268 to R271); and ANE and LXA (R274, R275), for every value of the two constants of
the chip, which the state carries (log 4). -/
def Obligations.UnofficialImmediates : Prop :=
  RunsRead ancForms (fun m c =>
    { c with a := c.a &&& m, z := (c.a &&& m) == 0, n := (c.a &&& m).getLsbD 7, c := (c.a &&& m).getLsbD 7 }) ∧
  RunsRead alrForms (fun m c =>
    let r := BitVec.ofNat 8 ((c.a &&& m).toNat / 2)
    { c with a := r, c := (c.a &&& m).getLsbD 0, z := r == 0, n := false }) ∧
  RunsRead arrForms (fun m c =>
    let r := BitVec.ofNat 8 ((c.a &&& m).toNat / 2 + 128 * c.c.toNat)
    { c with a := r, c := r.getLsbD 6, v := xor (r.getLsbD 6) (r.getLsbD 5), z := r == 0, n := r.getLsbD 7 }) ∧
  RunsRead axsForms (fun m c =>
    let r := (c.a &&& c.x) - m
    { c with x := r, c := decide (m.toNat ≤ (c.a &&& c.x).toNat), z := r == 0, n := r.getLsbD 7 }) ∧
  (∀ (b : Byte) (s : State), encode (.aneImm b) = [0x8B, b] ∧
    let r := (s.cpu.a ||| s.chip.magicAne) &&& s.cpu.x &&& b
    exec (.aneImm b) s = .next { s with cpu := { s.cpu with a := r, z := r == 0, n := r.getLsbD 7 } }) ∧
  (∀ (b : Byte) (s : State), encode (.lxaImm b) = [0xAB, b] ∧
    let r := (s.cpu.a ||| s.chip.magicLxa) &&& b
    exec (.lxaImm b) s = .next { s with cpu := { s.cpu with a := r, x := r, z := r == 0, n := r.getLsbD 7 } })

/-- SHA, SHX, SHY, TAS (R276 to R279, R259): the byte stored and the address where a page is crossed; TAS sets S first. -/
def Obligations.StoreHighInstructions : Prop :=
  RunsStoreHigh shaForms (fun c => c.a &&& c.x) id ∧ RunsStoreHigh shxForms (fun c => c.x) id ∧
  RunsStoreHigh shyForms (fun c => c.y) id ∧
  RunsStoreHigh tasForms (fun c => c.a &&& c.x) (fun c => { c with s := c.a &&& c.x })

/-- The twelve JAM opcodes (R281) halt the processor, and a step of a halted processor is one read of 0xFFFF whatever
interrupts wait: no register but the cycle count and the NMI latches changes, no memory, and it stays halted (R416). -/
def Obligations.JamHaltsTheProcessor : Prop :=
  (∀ q ∈ [((0x02 : Byte), Instr.jam02), (0x12, .jam12), (0x22, .jam22), (0x32, .jam32), (0x42, .jam42), (0x52, .jam52),
      (0x62, .jam62), (0x72, .jam72), (0x92, .jam92), (0xB2, .jamB2), (0xD2, .jamD2), (0xF2, .jamF2)],
    RunsImplied q.1 q.2 (fun c => { c with jammed := true })) ∧
  ∀ s : State, s.cpu.jammed = true →
    let u := (rd s 0xFFFF).2
    ∃ t, step s = .next t ∧ t = { u with cpu := s.cpu.ended 1 u t } ∧ MemFrame s t ∧
      (s.cpu.nmiPending = true → t.cpu.nmiPending = true)

/-! ### Interrupts, reset, the step (60_exceptions.md, 64_system_step_and_host.md, 70_reset_and_hazards.md) -/

/-- The step is total (R400, R641): every state has a next state, and none faults or is refused. -/
def Obligations.EveryStateHasANextState : Prop := ∀ s : State, ∃ t, step s = .next t

/-- NMI service (R404, R405, R411, R627): taken at a boundary whatever `I` and the IRQ line hold, the latch cleared; and
`RaiseNmi` brings it about. With the Picture Unit's enable bit clear no new edge can arrive. -/
def Obligations.NmiEntersTheHandler : Prop :=
  (∀ s : State, s.cpu.jammed = false → s.cpu.nmiPending = true →
    ∃ t, step s = .next t ∧ EntersHandler 0xFFFA s t ∧ (s.ppu.ctrl.getLsbD 7 = false → t.cpu.nmiPending = false)) ∧
  (∀ s : State, s.cpu.jammed = false → ∃ t, step (raiseNmi s) = .next t ∧ EntersHandler 0xFFFA s t)

/-- IRQ service (R404, R412, R403): taken where a source requests, `I` is clear and no NMI waits; the sources stay. A set
`I` masks it: the instruction at PC runs, said in the model's own division of fetch and `exec` (log 6) and with the scratch
cells cleared at the end (log 7). -/
def Obligations.IrqEntersTheHandler : Prop :=
  (∀ s : State, s.cpu.jammed = false → s.cpu.nmiPending = false → s.cpu.i = false →
    (s.apu.seq.frameIrq = true ∨ s.apu.dmc.irqFlag = true ∨ mapperIrq s.cart = true) →
    ∃ t, step s = .next t ∧ EntersHandler 0xFFFE s t) ∧
  (∀ s : State, s.cpu.jammed = false → s.cpu.nmiPending = false →
    (s.cpu.i = true ∨ (s.apu.seq.frameIrq = false ∧ s.apu.dmc.irqFlag = false ∧ mapperIrq s.cart = false)) →
    step s = mapNext (fun t => (attachedDma t).begun)
      (exec (fetchInstr s.begun).1 (fetchInstr s.begun).2))

/-- The tick (R622): the counters, three dots, one audio tick with the new cycle count; the processor's registers, RAM, the
open bus and the controllers untouched. After it the observed NMI level is the Picture Unit's line, and the latch is set
by a rising edge and by nothing else (R39, R402). -/
def Obligations.TickOrderAndNmiLatch : Prop :=
  (∀ s : State,
    let u := ppuDot (ppuDot (ppuDot { s with
      cpu := { s.cpu with cycles := s.cpu.cycles + 1, tick := s.cpu.tick + 1 } }))
    (tick s).ppu = u.ppu ∧ (tick s).cart = u.cart ∧
    (tick s).apu = s.apu.tick s.chip.noiseTableLen (s.cpu.cycles + 1) (fun a => (cpuRead u.cart a).getD s.openBus) ∧
    (tick s).cpu = s.cpu.spent 1 (tick s) ∧ (tick s).ram = s.ram ∧ (tick s).openBus = s.openBus ∧
    (tick s).pad1 = s.pad1 ∧ (tick s).pad2 = s.pad2 ∧ (tick s).strobe = s.strobe) ∧
  (∀ s : State, (tick s).cpu.nmiPrev = ((tick s).ppu.vblank && (tick s).ppu.ctrl.getLsbD 7) ∧
    ((tick s).cpu.nmiPending = true ↔
      s.cpu.nmiPending = true ∨
        ((tick s).ppu.vblank = true ∧ (tick s).ppu.ctrl.getLsbD 7 = true ∧ s.cpu.nmiPrev = false)))

/-- `Reset()` (R413, R651): S lowered by `RESET_S_DELTA` with nothing stacked, `I` clear, PC from 0xFFFC, the jam and the
latches cleared, the audio channels disabled, `RESET_CYCLES` = `INT_CYCLES` cycles; A, X, Y, the other flags, every memory
and the bank registers kept. With the delta 3 the reads in their order give the whole state. With the delta 0 S stays and the
vector is read, some byte `b` standing for it where no cartridge claims it; which reads come before, and so the rest of
the state beyond the registers and what is kept, is not said (log 11). -/
def Obligations.ResetKeepsRegistersAndMemories : Prop :=
  ∀ s : State,
    let n := s.chip.intCycles.count
    let r := hostReset s
    let c : Cpu := { s.cpu with
      i := false, jammed := false, nmiPending := false, nmiPrev := r.ppu.vblank && r.ppu.ctrl.getLsbD 7
      cycles := s.cpu.cycles + n, tick := 0, dmaPage := none, micro := r.cpu.micro }
    MemFrame { s with apu := s.apu.enableWrite 0x00 } r ∧
    (s.chip.resetSDelta = .zero → ∃ b, r.cpu = { c with pc := vectorWord s 0xFFFC b }) ∧
    (s.chip.resetSDelta = .three →
      let last := Cells.read s.ram (stackCell (s.cpu.s - 2))
      let u := afterReads
        (List.replicate (n - 5) s.cpu.pc ++
          [stackAddr s.cpu.s, stackAddr (s.cpu.s - 1), stackAddr (s.cpu.s - 2), 0xFFFC, 0xFFFD])
        { s with apu := s.apu.enableWrite 0x00 }
      r = { u with cpu := { c with s := s.cpu.s - 3, pc := vectorWord s 0xFFFC last } })

/-- The state after reset is what the reset sequence makes of the power-on values (R650, R652), with no cartridge and the
power-on contents of the memories taken as zero, the model's choice (log 1, log 2). -/
def Obligations.ResetStateFollowsThePowerOnValues : Prop :=
  State.reset = resetSequence (State.powerOn .empty) ∧
  State.reset.cpu.s = 0xFD ∧ State.reset.cpu.i = false ∧ State.reset.cpu.cycles = 6 ∧ State.reset.ppu.scanline = 0 ∧
  State.reset.ppu.dot = 18 ∧ State.reset.apu.seq.cycle = 6

/-- The invariant of the whole state is kept by every step, from every state that has it: the raster counters, the channel
cells, the storage sizes and the canonical form of every memory (R46, R58, R66, R67, R526, R535), every bank register under
its mask (R585), and no extra name tables but in a FourScreen cartridge (R586). -/
def Obligations.StepKeepsTheInvariant : Prop :=
  ∀ s t : State, s.Inv → step s = .next t → t.Inv

/-- The invariant holds after reset. -/
def Obligations.ResetMeetsTheInvariant : Prop := State.reset.Inv

/-- A step ends at an instruction boundary (R404, R414): `tick` 0 and no DMA waiting; and it takes at least one cycle and at
most those of the longest instruction and a DMA. That the scratch cells hold fixed values there is the model's choice: the
spec says "any" (log 7). -/
def Obligations.StepEndsAtABoundary : Prop :=
  ∀ s t : State, s.cpu.dmaPage = none → step s = .next t →
    t.AtBoundary ∧ s.cpu.cycles + 1 ≤ t.cpu.cycles ∧ t.cpu.cycles ≤ s.cpu.cycles + 8 + 514

/-- `StepCycle()` (R621): from a boundary, as many calls as the step takes cycles give exactly the state that the step
gives, and `tick` counts the calls on the way. The equality of whole states rests on two choices of the model: both clear
the scratch cells at the boundary (log 7), and a DMA stepped by cycle keeps its place in them (log 9). -/
def Obligations.CycleStepsMakeOneStep : Prop :=
  ∀ s t : State, s.AtBoundary → step s = .next t →
    stepCycle^[t.cpu.cycles - s.cpu.cycles] s = t ∧
    ∀ k < t.cpu.cycles - s.cpu.cycles, (stepCycle^[k] s).cpu.tick = k

/-- No step changes the program ROM, the character ROM, the identity of the cartridge, the buttons or the chip (R66, R106,
R586): whatever the program does. -/
def Obligations.StepLeavesRomAndInputs : Prop :=
  ∀ s t : State, step s = .next t →
    t.cart.prg = s.cart.prg ∧ t.cart.prgLen = s.cart.prgLen ∧ t.cart.chrLen = s.cart.chrLen ∧
    t.cart.chrIsRam = s.cart.chrIsRam ∧ (s.cart.chrIsRam = false → t.cart.chr = s.cart.chr) ∧
    t.cart.mirroringHdr = s.cart.mirroringHdr ∧ t.cart.mapperId = s.cart.mapperId ∧
    t.cart.hasBattery = s.cart.hasBattery ∧ t.pad1.buttons = s.pad1.buttons ∧ t.pad2.buttons = s.pad2.buttons ∧
    t.chip = s.chip

/-- Object-memory DMA (R108), for every page and every state: `dma_page` is emptied, one wait read of PC, one more where
the count of cycles is odd after it, then 256 times a read of the page's byte and a write of it to 0x2004. From a page of
RAM with rendering off that copies 256 bytes into object memory from `oam_addr` on, wrapping, in 513 or 514 cycles, and
nothing else changes. -/
def Obligations.DmaCopiesAPage : Prop :=
  ∀ (s : State) (page : Byte), s.cpu.dmaPage = some page →
    let t := attachedDma s
    let odd := (s.cpu.cycles + 1) % 2
    let start := afterReads (List.replicate (1 + odd) s.cpu.pc) { s with cpu := { s.cpu with dmaPage := none } }
    t = (List.range 256).foldl
      (fun u i => let r := rd u (wordOf page (BitVec.ofNat 8 i)); wr r.2 0x2004 r.1) start ∧
    t.cpu = ({ s.cpu with dmaPage := none }).spent (513 + odd) t ∧
    (s.Inv → page.toNat < 0x20 → rendering s.ppu = false →
      (∀ i < 256, Cells.read t.ppu.oam ((s.ppu.oamAddr.toNat + i) % 256) =
        Cells.read s.ram ((256 * page.toNat + i) % 0x800)) ∧
      t.ppu.oamAddr = s.ppu.oamAddr ∧
      MemFrame { s with ppu := { s.ppu with oam := t.ppu.oam } } t)

/-! ### The bus (20_memory.md) -/

/-- One bus read (R84, R86 to R89, R92): RAM with its mirrors; the eight registers of the picture-unit window, where the
write-only ones give the I/O latch, object memory leaves its address (R54), the data port gives the buffer, or the palette
cell at once, refills the buffer and advances `v` (R462, R463, R466), and every read sets the latch; the status port
0x4015; the two controller ports (R105); the mapper, and the open bus where nothing claims. -/
def Obligations.BusReadResolution : Prop :=
  ∀ (s : State) (a : Word),
    let serial (q : Pad) : Byte := (s.openBus &&& 0xE0) ||| ((if s.strobe then q.buttons else q.shift) &&& 0x01)
    let shifted (q : Pad) : Pad := { q with shift := if s.strobe then q.buttons else BitVec.ofNat 8 (q.shift.toNat / 2 + 128) }
    (a.toNat ≤ 0x1FFF →
      busRead s a = (Cells.read s.ram (a.toNat % 0x800), { s with openBus := Cells.read s.ram (a.toNat % 0x800) })) ∧
    (0x2000 ≤ a.toNat ∧ a.toNat ≤ 0x3FFF →
      let p := s.ppu
      let r := ppuRegRead s (ppuRegOf a)
      let oam := Cells.read p.oam p.oamAddr.toNat
      let attr : Byte := if p.oamAddr.toNat % 4 = 2 then oam &&& 0xE3 else oam
      let va := BitVec.ofNat 14 p.v.toNat
      let i := va.toNat % 32
      let colour := Cells.read p.palette (if i = 16 ∨ i = 20 ∨ i = 24 ∨ i = 28 then i - 16 else i)
      let below : Bool := va.toNat ≤ 0x3EFF
      let data : Byte := if below then p.readBuf else BitVec.ofNat 8 (p.ioLatch.toNat / 64 * 64 + colour.toNat)
      let status : Byte := BitVec.ofNat 8
        (128 * p.vblank.toNat + 64 * p.spr0Hit.toNat + 32 * p.sprOverflow.toNat + p.ioLatch.toNat % 32)
      busRead s a = (r.1, { r.2 with openBus := r.1 }) ∧
      (a.toNat % 8 = 0 ∨ a.toNat % 8 = 1 ∨ a.toNat % 8 = 3 ∨ a.toNat % 8 = 5 ∨ a.toNat % 8 = 6 →
        busRead s a = (p.ioLatch, { s with openBus := p.ioLatch })) ∧
      (a.toNat % 8 = 2 → busRead s a =
        (status, { s with openBus := status, ppu := { p with vblank := false, w := false, ioLatch := status } })) ∧
      (a.toNat % 8 = 4 → busRead s a = (attr, { s with openBus := attr, ppu := { p with ioLatch := attr } })) ∧
      (a.toNat % 8 = 7 → busRead s a = (data, { s with openBus := data, ppu := { p with
        readBuf := if below then ppuRead s va else ntRead s (va.toNat % 0x1000)
        v := p.v + (if p.ctrl.getLsbD 2 then 32 else 1)
        ioLatch := data } }))) ∧
    (a = 0x4015 → busRead s a =
      (s.apu.statusByte s.openBus, { s with apu := { s.apu with seq := { s.apu.seq with frameIrq := false } } })) ∧
    (a = 0x4016 → busRead s a = (serial s.pad1, { s with openBus := serial s.pad1, pad1 := shifted s.pad1 })) ∧
    (a = 0x4017 → busRead s a = (serial s.pad2, { s with openBus := serial s.pad2, pad2 := shifted s.pad2 })) ∧
    (0x4000 ≤ a.toNat ∧ a ≠ 0x4015 ∧ a ≠ 0x4016 ∧ a ≠ 0x4017 →
      (∀ b, cpuRead s.cart a = some b → busRead s a = (b, { s with openBus := b })) ∧
      (cpuRead s.cart a = none → busRead s a = (s.openBus, s)))

/-- One bus write (R85, R86, R92): the value is driven first, claimed or not. RAM takes it at every mirror. The
picture-unit window takes it by its eight registers (R461, R464, R465, R467, R469), every one of them setting the I/O
latch. The I/O window takes it by the dispatch of R552, the enables of 0x4015 by R550, the strobe by R104 (a shift register
follows the buttons while the strobe is high, log 17), 0x4017 by R546. All other addresses go to the mapper. -/
def Obligations.BusWriteResolution : Prop :=
  ∀ (s : State) (a : Word) (v : Byte),
    let d : State := { s with openBus := v }
    let t := busWrite s a v
    t.openBus = v ∧
    (a.toNat ≤ 0x1FFF →
      t = { d with ram := Cells.write s.ram (a.toNat % 0x800) v } ∧
      ∀ b : Word, s.Inv → b.toNat ≤ 0x1FFF → peek t b = if b.toNat % 0x800 = a.toNat % 0x800 then v else peek s b) ∧
    (0x2000 ≤ a.toNat ∧ a.toNat ≤ 0x3FFF →
      let p : Ppu := { s.ppu with ioLatch := v }
      let old := s.ppu.t.toNat
      t = ppuRegWrite d (ppuRegOf a) v ∧ t.ppu.ioLatch = v ∧ t.ram = s.ram ∧ t.cpu = s.cpu ∧ t.apu = s.apu ∧
      (a.toNat % 8 = 0 → t = { d with ppu := { p with
        ctrl := v, t := BitVec.ofNat 15 (old / 4096 * 4096 + 1024 * (v.toNat % 4) + old % 1024) } }) ∧
      (a.toNat % 8 = 1 → t = { d with ppu := { p with mask := v } }) ∧
      (a.toNat % 8 = 2 → t = { d with ppu := p }) ∧
      (a.toNat % 8 = 3 → t = { d with ppu := { p with oamAddr := v } }) ∧
      (a.toNat % 8 = 4 → t = { d with ppu := { p with
        oam := Cells.write s.ppu.oam s.ppu.oamAddr.toNat v, oamAddr := s.ppu.oamAddr + 1 } }) ∧
      (a.toNat % 8 = 5 → t = { d with ppu :=
        if s.ppu.w then { p with
          t := BitVec.ofNat 15 (4096 * (v.toNat % 8) + old / 1024 % 4 * 1024 + 32 * (v.toNat / 8) + old % 32), w := false }
        else { p with
          t := BitVec.ofNat 15 (old / 32 * 32 + v.toNat / 8), fineX := BitVec.ofNat 3 v.toNat, w := true } }) ∧
      (a.toNat % 8 = 6 → t = { d with ppu :=
        if s.ppu.w then { p with
          t := BitVec.ofNat 15 (old / 256 * 256 + v.toNat), v := BitVec.ofNat 15 (old / 256 * 256 + v.toNat), w := false }
        else { p with t := BitVec.ofNat 15 (256 * (v.toNat % 64) + old % 256), w := true } }) ∧
      (a.toNat % 8 = 7 →
        let u := ppuWrite { d with ppu := p } (BitVec.ofNat 14 s.ppu.v.toNat) v
        t = { u with ppu := { u.ppu with v := s.ppu.v + (if s.ppu.ctrl.getLsbD 2 then 32 else 1) } })) ∧
    (0x4000 ≤ a.toNat ∧ a.toNat ≤ 0x4017 →
      let u := s.apu
      let low (period : BitVec 11) := BitVec.ofNat 11 (period.toNat / 256 * 256 + v.toNat)
      let high (period : BitVec 11) := BitVec.ofNat 11 (256 * (v.toNat % 8) + period.toNat % 256)
      let loaded (enabled : Bool) (length : Byte) := if enabled then lengthEntry (BitVec.ofNat 5 (v.toNat / 8)) else length
      let pulse (q : Pulse) : Pulse :=
        match a.toNat % 4 with
        | 0 => { q with
          duty := BitVec.ofNat 2 (v.toNat / 64), halt := v.getLsbD 5, constVol := v.getLsbD 4
          vol := BitVec.ofNat 4 v.toNat }
        | 1 => { q with
          swEn := v.getLsbD 7, swPeriod := BitVec.ofNat 3 (v.toNat / 16), swNeg := v.getLsbD 3
          swShift := BitVec.ofNat 3 v.toNat, swReload := true }
        | 2 => { q with period := low q.period }
        | _ => { q with period := high q.period, length := loaded q.enabled q.length, envStart := true, seq := 0 }
      let triangle (q : Triangle) : Triangle :=
        match a.toNat % 4 with
        | 0 => { q with ctrl := v.getLsbD 7, linReloadVal := BitVec.ofNat 7 v.toNat }
        | 1 => q
        | 2 => { q with period := low q.period }
        | _ => { q with period := high q.period, length := loaded q.enabled q.length, linReload := true }
      let noise (q : Noise) : Noise :=
        match a.toNat % 4 with
        | 0 => { q with halt := v.getLsbD 5, constVol := v.getLsbD 4, vol := BitVec.ofNat 4 v.toNat }
        | 1 => q
        | 2 => { q with mode := v.getLsbD 7, periodIdx := BitVec.ofNat 4 v.toNat }
        | _ => { q with length := loaded q.enabled q.length, envStart := true }
      let dmc (q : Dmc) : Dmc :=
        match a.toNat % 4 with
        | 0 => { q with
          irqEn := v.getLsbD 7, loop := v.getLsbD 6, rateIdx := BitVec.ofNat 4 v.toNat
          irqFlag := q.irqFlag && v.getLsbD 7 }
        | 1 => { q with level := BitVec.ofNat 7 v.toNat }
        | 2 => { q with addrReg := v }
        | _ => { q with lenReg := v }
      let shown (q : Pad) : Pad := if s.strobe || v.getLsbD 0 then { q with shift := q.buttons } else q
      (a.toNat ≤ 0x4003 → t = { d with apu := { u with pulse1 := pulse u.pulse1 } }) ∧
      (0x4004 ≤ a.toNat ∧ a.toNat ≤ 0x4007 → t = { d with apu := { u with pulse2 := pulse u.pulse2 } }) ∧
      (0x4008 ≤ a.toNat ∧ a.toNat ≤ 0x400B → t = { d with apu := { u with triangle := triangle u.triangle } }) ∧
      (0x400C ≤ a.toNat ∧ a.toNat ≤ 0x400F → t = { d with apu := { u with noise := noise u.noise } }) ∧
      (0x4010 ≤ a.toNat ∧ a.toNat ≤ 0x4013 → t = { d with apu := { u with dmc := dmc u.dmc } }) ∧
      (a = 0x4014 → t = { d with cpu := { s.cpu with dmaPage := some v } }) ∧
      (a = 0x4015 → t = { d with apu := u.enableWrite v }) ∧
      (a = 0x4016 → t = { d with strobe := v.getLsbD 0, pad1 := shown s.pad1, pad2 := shown s.pad2 }) ∧
      (a = 0x4017 → t = { d with apu := { u with seq := { u.seq with
        mode := v.getLsbD 7, irqInhibit := v.getLsbD 6, frameIrq := u.seq.frameIrq && !v.getLsbD 6
        resetDelay := if (s.cpu.cycles + 1) % 2 = 0 then 4 else 5 } } })) ∧
    (0x4018 ≤ a.toNat → t = { d with cart := cpuWrite s.cart s.chip a v })

/-- A controller port (R104, R105, R106): after the strobe goes high and low, reads give the eight buttons in order, then
1s, the buttons being those held when the strobe goes low, whatever was pressed or released while it was high (log 17);
bits 7 to 5 are the open bus, bits 4 to 1 are 0; and while the strobe is high every read gives button A. -/
def Obligations.ControllersReportTheButtons : Prop :=
  ∀ (s : State) (n : Nat) (b1 b2 : Byte),
    let high := busWrite s 0x4016 0x01
    let held : State := { high with pad1 := { high.pad1 with buttons := b1 }, pad2 := { high.pad2 with buttons := b2 } }
    let latched := busWrite held 0x4016 0x00
    let at1 := (fun u => (busRead u 0x4016).2)^[n] latched
    let at2 := (fun u => (busRead u 0x4017).2)^[n] latched
    ((busRead at1 0x4016).1.getLsbD 0 = if n < 8 then b1.getLsbD n else true) ∧
    ((busRead at2 0x4017).1.getLsbD 0 = if n < 8 then b2.getLsbD n else true) ∧
    ((busRead at1 0x4016).1 &&& 0xFE = at1.openBus &&& 0xE0) ∧
    ((busRead at2 0x4017).1 &&& 0xFE = at2.openBus &&& 0xE0) ∧
    (busRead ((fun u => (busRead u 0x4016).2)^[n] held) 0x4016).1.getLsbD 0 = b1.getLsbD 0 ∧
    (busRead ((fun u => (busRead u 0x4017).2)^[n] held) 0x4017).1.getLsbD 0 = b2.getLsbD 0

/-! ### The PPU address space and registers (20_memory.md R110 to R112, 61_picture_unit.md) -/

/-- Name-table memory under each mirroring mode (R111): a write shows at every address whose table has the same page and
whose offset in the table is the same, and nowhere else. -/
def Obligations.NameTableMirroring : Prop :=
  ∀ (s : State) (off off' : Nat) (v : Byte), s.Inv → off < 0x1000 → off' < 0x1000 →
    let page (tbl : Nat) : Nat :=
      match mirroring s.cart with
      | .horizontal => if tbl < 2 then 0 else 1
      | .vertical => if tbl = 1 ∨ tbl = 3 then 1 else 0
      | .oneScreenLower => 0
      | .oneScreenUpper => 1
      | .fourScreen => tbl
    ntRead (ntWrite s off v) off' =
      if page (off / 0x400) = page (off' / 0x400) ∧ off % 0x400 = off' % 0x400 then v else ntRead s off'

/-- Palette memory (R110, R112): 32 cells mirrored through 0x3F00..0x3FFF, six bits each, 0x10, 0x14, 0x18, 0x1C the cells
of 0x00, 0x04, 0x08, 0x0C; the upper two bits of a read are the I/O latch's. -/
def Obligations.PaletteMirroring : Prop :=
  ∀ (s : State) (a b : BitVec 14) (v : Byte), s.Inv → 0x3F00 ≤ a.toNat → 0x3F00 ≤ b.toNat →
    let cell (x : BitVec 14) : Nat :=
      let i := x.toNat % 32
      if i = 16 ∨ i = 20 ∨ i = 24 ∨ i = 28 then i - 16 else i
    ppuRead (ppuWrite s a v) b =
      if cell a = cell b then (s.ppu.ioLatch &&& 0xC0) ||| (v &&& 0x3F) else ppuRead s b

/-- The status read (R463) and the shared toggle (R464, R465): a status read gives the three flags and clears `vblank` and
`w`; then two writes of the address port set `v` and `t`, two of the scroll port the scroll fields of `t`. -/
def Obligations.ScrollAndAddressPorts : Prop :=
  (∀ (s : State) (a : Word), 0x2000 ≤ a.toNat → a.toNat ≤ 0x3FFF → a.toNat % 8 = 2 →
    let b := (busRead s a).1
    b.toNat = 128 * s.ppu.vblank.toNat + 64 * s.ppu.spr0Hit.toNat + 32 * s.ppu.sprOverflow.toNat +
      s.ppu.ioLatch.toNat % 32 ∧
    (busRead s a).2 =
      { s with openBus := b, ppu := { s.ppu with vblank := false, w := false, ioLatch := b } }) ∧
  (∀ (s : State) (a b : Word) (hi lo : Byte), 0x2000 ≤ a.toNat → a.toNat ≤ 0x3FFF → a.toNat % 8 = 6 →
    0x2000 ≤ b.toNat → b.toNat ≤ 0x3FFF → b.toNat % 8 = 6 → s.ppu.w = false →
    let t := busWrite (busWrite s a hi) b lo
    t.ppu.v.toNat = 256 * (hi.toNat % 64) + lo.toNat ∧ t.ppu.t = t.ppu.v ∧ t.ppu.w = false ∧
    t.ppu.fineX = s.ppu.fineX) ∧
  (∀ (s : State) (a b : Word) (x y : Byte), 0x2000 ≤ a.toNat → a.toNat ≤ 0x3FFF → a.toNat % 8 = 5 →
    0x2000 ≤ b.toNat → b.toNat ≤ 0x3FFF → b.toNat % 8 = 5 → s.ppu.w = false →
    let t := busWrite (busWrite s a x) b y
    t.ppu.t.toNat = 4096 * (y.toNat % 8) + s.ppu.t.toNat / 1024 % 4 * 1024 + 32 * (y.toNat / 8) + x.toNat / 8 ∧
    t.ppu.fineX.toNat = x.toNat % 8 ∧ t.ppu.v = s.ppu.v ∧ t.ppu.w = false)

/-- The data port (R466, R467): a byte written to a name-table address comes back on the second read of that address, the
first giving the buffer; each access advances `v` by 1, or by 32 when `ctrl[2]`. -/
def Obligations.DataPortReadsBackAfterOneRead : Prop :=
  ∀ (s : State) (addr : BitVec 15) (b : Byte), s.Inv → 0x2000 ≤ addr.toNat → addr.toNat ≤ 0x3EFF →
    let at' (u : State) : State := { u with ppu := { u.ppu with v := addr } }
    let s1 := busWrite (at' s) 0x2007 b
    let r1 := busRead (at' s1) 0x2007
    let r2 := busRead (at' r1.2) 0x2007
    r1.1 = s.ppu.readBuf ∧ r2.1 = b ∧
    s1.ppu.v = addr + (if s.ppu.ctrl.getLsbD 2 then 32 else 1) ∧
    r1.2.ppu.v = addr + (if s.ppu.ctrl.getLsbD 2 then 32 else 1)

/-- The scroll updates of rendering (R457): 32 horizontal steps come back to the same column of the neighbouring table, 240
vertical steps from a row of the picture to the same row of the neighbouring table; each leaves the other's fields. -/
def Obligations.ScrollIncrementsWrapIntoTheNextTable : Prop :=
  (∀ v : BitVec 15, incX^[32] v = v ^^^ 0x0400) ∧
  (∀ v : BitVec 15, (v.toNat / 32) % 32 < 30 → incY^[240] v = v ^^^ 0x0800) ∧
  (∀ v : BitVec 15, (incX v).toNat / 32 % 32 = v.toNat / 32 % 32 ∧ (incX v).toNat / 2048 = v.toNat / 2048) ∧
  (∀ v : BitVec 15, (incY v).toNat % 32 = v.toNat % 32 ∧ (incY v).toNat / 1024 % 2 = v.toNat / 1024 % 2)

/-- The length of a frame (R451, R453): from the first dot of a frame, 341 x 262 dots later, one fewer on an odd frame with
rendering enabled, the next frame begins; the counters pass through every position on the way, in order. -/
def Obligations.AFrameIsAFixedNumberOfDots : Prop :=
  ∀ s : State, s.ppu.RasterOk → s.ppu.scanline = 0 → s.ppu.dot = 0 →
    let n := 341 * 262 - (if s.ppu.oddFrame && rendering s.ppu then 1 else 0)
    (∀ k < n, 341 * (ppuDot^[k] s).ppu.scanline + (ppuDot^[k] s).ppu.dot = k ∧
      (ppuDot^[k] s).ppu.frame = s.ppu.frame) ∧
    (ppuDot^[n] s).ppu.scanline = 0 ∧ (ppuDot^[n] s).ppu.dot = 0 ∧ (ppuDot^[n] s).ppu.frame = s.ppu.frame + 1 ∧
    (ppuDot^[n] s).ppu.oddFrame = !s.ppu.oddFrame

/-- Vertical blank and the frame hand-off (R454, R455): the flag is set at (241, 1), cleared at (261, 1) with the two sprite
flags, and changed by no other dot; at (261, 1) the pixels drawn are handed over, and by no other dot. -/
def Obligations.VerticalBlankAndHandOff : Prop :=
  ∀ s : State,
    (ppuDot s).ppu.vblank =
      (if s.ppu.scanline = 241 ∧ s.ppu.dot = 1 then true
       else if s.ppu.scanline = 261 ∧ s.ppu.dot = 1 then false else s.ppu.vblank) ∧
    (s.ppu.scanline = 261 → s.ppu.dot = 1 → (ppuDot s).ppu.spr0Hit = false ∧ (ppuDot s).ppu.sprOverflow = false ∧
      (ppuDot s).ppu.frameOut = s.ppu.pixels ∧ (ppuDot s).ppu.frameReady = true) ∧
    (¬ (s.ppu.scanline = 261 ∧ s.ppu.dot = 1) →
      (ppuDot s).ppu.frameOut = s.ppu.frameOut ∧ (ppuDot s).ppu.frameReady = s.ppu.frameReady)

/-- Sprite evaluation (R471): the first eight objects in range of the line, no more; fewer than eight leave the overflow
flag; and the secondary memory holds their bytes in order. That bits 4:2 of the attribute bytes are 0 there is the model's
deduction (log 13): R471's own copy masks nothing, and R113 (20_memory.md) says that these bits read 0. -/
def Obligations.SpriteEvaluationTakesTheFirstEight : Prop :=
  ∀ (p : Ppu) (line : Nat), line ≤ 239 →
    let h := if p.ctrl.getLsbD 5 then 16 else 8
    let hits := (List.range 64).filter fun n =>
      (Cells.read p.oam (4 * n)).toNat ≤ line && line < (Cells.read p.oam (4 * n)).toNat + h
    let q := spriteEvaluate line p
    q.oam2Count = min 8 hits.length ∧
    q.oam2Has0 = (decide (0 ∈ hits)) ∧
    (hits.length < 8 → q.sprOverflow = p.sprOverflow) ∧
    (∀ k < min 8 hits.length, ∀ j < 4,
      let b := Cells.read p.oam (4 * hits.getD k 0 + j)
      Cells.read q.oam2 (4 * k + j) = if j = 2 then b &&& 0xE3 else b)

/-- Pixel output (R459): the dot's own cell, and no other, takes the colour of the winning layer: the background pixel
where it is shown, the first sprite unit with an opaque pixel in its eight columns, the unit behind an opaque background
only by its own priority bit, `palette[0]` where both are transparent; greyscale masks it. The sprite-zero flag (R460)
stays, or rises exactly where an opaque background pixel meets an opaque pixel of object 0 at a column other than 255. -/
def Obligations.SpriteZeroHitNeedsBothLayers : Prop :=
  ∀ (p : Ppu) (x y : Nat), p.MemoriesOk → x < 256 → y < 240 →
    let q := outputPixel x y p
    let k := 15 - p.fineX.toNat
    let bgPx : Nat :=
      if p.mask.getLsbD 3 ∧ (8 ≤ x ∨ p.mask.getLsbD 1) then 2 * (p.bgHi.getLsbD k).toNat + (p.bgLo.getLsbD k).toNat else 0
    let bgPal : Nat := 2 * (p.atHi.getLsbD k).toNat + (p.atLo.getLsbD k).toNat
    let spPx (u : SpriteUnit) : Nat :=
      if p.mask.getLsbD 4 ∧ (8 ≤ x ∨ p.mask.getLsbD 2) ∧ u.x.toNat ≤ x ∧ x ≤ u.x.toNat + 7 then
        2 * (u.hi.getLsbD (u.x.toNat + 7 - x)).toNat + (u.lo.getLsbD (u.x.toNat + 7 - x)).toNat
      else 0
    let front := p.sprites.find? fun u => spPx u != 0
    let entry : Nat :=
      match front with
      | none => if bgPx = 0 then 0 else 4 * bgPal + bgPx
      | some u =>
        if bgPx ≠ 0 ∧ u.attr.getLsbD 5 then 4 * bgPal + bgPx else 16 + 4 * (u.attr.toNat % 4) + spPx u
    let colour := if p.mask.getLsbD 0 then Cells.read p.palette entry &&& 0x30 else Cells.read p.palette entry
    (∀ j, Cells.read q.pixels j = if j = 256 * y + x then colour else Cells.read p.pixels j) ∧
    q = { p with pixels := q.pixels, spr0Hit := q.spr0Hit } ∧
    (q.spr0Hit = true ↔
      p.spr0Hit = true ∨ (bgPx ≠ 0 ∧ x ≠ 255 ∧ ∃ u, front = some u ∧ u.isZero = true)) ∧
    (p.spr0Hit = false → q.spr0Hit = true →
      x ≠ 255 ∧ p.mask.getLsbD 3 = true ∧ p.mask.getLsbD 4 = true ∧
      (x < 8 → p.mask.getLsbD 1 = true ∧ p.mask.getLsbD 2 = true) ∧
      ∃ u ∈ p.sprites, u.isZero = true ∧ u.x.toNat ≤ x ∧ x ≤ u.x.toNat + 7)

/-! ### The Audio Unit (62_audio_unit.md) -/

/-- The enable write and the status read (R550, R551, R526): a channel disabled has its length 0 at once and its status bit
is 0; an enabled one keeps its length; the sample channel starts again if it had ended, and its request is cleared; nothing
else changes. A status read clears the frame request alone. A length is loaded only while its channel is enabled, by the
fourth register of each of the four channels (R527, R552). -/
def Obligations.AudioEnableAndStatus : Prop :=
  ∀ (s : State) (v : Byte),
    let t := busWrite s 0x4015 v
    let b := (busRead t 0x4015).1
    let u := s.apu
    let kept (bit : Nat) (length : Byte) : Byte := if v.getLsbD bit then length else 0
    t = { s with openBus := v, apu := { u with
      pulse1 := { u.pulse1 with enabled := v.getLsbD 0, length := kept 0 u.pulse1.length }
      pulse2 := { u.pulse2 with enabled := v.getLsbD 1, length := kept 1 u.pulse2.length }
      triangle := { u.triangle with enabled := v.getLsbD 2, length := kept 2 u.triangle.length }
      noise := { u.noise with enabled := v.getLsbD 3, length := kept 3 u.noise.length }
      dmc := { u.dmc with
        enabled := v.getLsbD 4, irqFlag := false
        bytesLeft :=
          if v.getLsbD 4 = false then 0
          else if u.dmc.bytesLeft = 0 then BitVec.ofNat 12 (16 * u.dmc.lenReg.toNat + 1) else u.dmc.bytesLeft
        curAddr :=
          if v.getLsbD 4 = true ∧ u.dmc.bytesLeft = 0 then BitVec.ofNat 16 (0xC000 + 64 * u.dmc.addrReg.toNat)
          else u.dmc.curAddr } } } ∧
    (b.getLsbD 0 = (v.getLsbD 0 && s.apu.pulse1.length != 0)) ∧
    (b.getLsbD 1 = (v.getLsbD 1 && s.apu.pulse2.length != 0)) ∧
    (b.getLsbD 2 = (v.getLsbD 2 && s.apu.triangle.length != 0)) ∧
    (b.getLsbD 3 = (v.getLsbD 3 && s.apu.noise.length != 0)) ∧
    b.getLsbD 4 = v.getLsbD 4 ∧ b.getLsbD 5 = v.getLsbD 5 ∧ b.getLsbD 6 = s.apu.seq.frameIrq ∧ b.getLsbD 7 = false ∧
    (busRead t 0x4015).2 = { t with apu := { t.apu with seq := { t.apu.seq with frameIrq := false } } } ∧
    let entry := lengthEntry (BitVec.ofNat 5 (v.toNat / 8))
    (busWrite s 0x4003 v).apu.pulse1.length = (if s.apu.pulse1.enabled then entry else s.apu.pulse1.length) ∧
    (busWrite s 0x4007 v).apu.pulse2.length = (if s.apu.pulse2.enabled then entry else s.apu.pulse2.length) ∧
    (busWrite s 0x400B v).apu.triangle.length = (if s.apu.triangle.enabled then entry else s.apu.triangle.length) ∧
    (busWrite s 0x400F v).apu.noise.length = (if s.apu.noise.enabled then entry else s.apu.noise.length)

/-- The frame sequencer (R545, R546). One tick: the count moves on and restarts at 29830 (4-step) or 37282 (5-step), or
where the delay of a write to 0x4017 runs out; the request is raised at cycles 29828 to 29830 of the 4-step schedule
unless inhibited; the quarter and half clocks come at their cycles, and once more at a delayed restart of the 5-step
schedule. The quarter clock clocks the three envelopes (R525) and the linear counter (R533), the half clock the four length
counters (R526) and the two sweeps (R537), and no other cell changes. A write to 0x4017 sets mode, inhibit and the delay,
4 or 5 by the parity of its own cycle, and after that many ticks the count is 0. -/
def Obligations.FrameSequencerRequests : Prop :=
  (∀ u : Apu,
    let div (start : Bool) (vol div : BitVec 4) : BitVec 4 := if start ∨ div = 0 then vol else div - 1
    let decay (start halt : Bool) (div decay : BitVec 4) : BitVec 4 :=
      if start then 15 else if div ≠ 0 then decay else if 0 < decay.toNat then decay - 1 else if halt then 15 else 0
    let envelope (q : Pulse) : Pulse := { q with
      envStart := false, envDiv := div q.envStart q.vol q.envDiv
      envDecay := decay q.envStart q.halt q.envDiv q.envDecay }
    u.quarter = { u with
      pulse1 := envelope u.pulse1
      pulse2 := envelope u.pulse2
      triangle := { u.triangle with
        linear := if u.triangle.linReload then u.triangle.linReloadVal
          else if 0 < u.triangle.linear.toNat then u.triangle.linear - 1 else 0
        linReload := u.triangle.linReload && u.triangle.ctrl }
      noise := { u.noise with
        envStart := false, envDiv := div u.noise.envStart u.noise.vol u.noise.envDiv
        envDecay := decay u.noise.envStart u.noise.halt u.noise.envDiv u.noise.envDecay } }) ∧
  (∀ u : Apu,
    let counted (halt : Bool) (length : Byte) : Byte := if halt = false ∧ 0 < length.toNat then length - 1 else length
    let target (q : Pulse) (first : Bool) : Nat :=
      let c := q.period.toNat / 2 ^ q.swShift.toNat
      if q.swNeg then q.period.toNat - (c + first.toNat) else q.period.toNat + c
    let pulse (q : Pulse) (first : Bool) : Pulse := { q with
      length := counted q.halt q.length
      period :=
        if q.swDiv = 0 ∧ q.swEn ∧ q.swShift ≠ 0 ∧ 8 ≤ q.period.toNat ∧ target q first ≤ 0x7FF then
          BitVec.ofNat 11 (target q first)
        else q.period
      swDiv := if q.swDiv = 0 ∨ q.swReload then q.swPeriod else q.swDiv - 1
      swReload := false }
    u.half = { u with
      pulse1 := pulse u.pulse1 true
      pulse2 := pulse u.pulse2 false
      triangle := { u.triangle with length := counted u.triangle.ctrl u.triangle.length }
      noise := { u.noise with length := counted u.noise.halt u.noise.length } }) ∧
  (∀ u : Apu,
    let n := u.seq.cycle + 1
    let restart : Bool := u.seq.resetDelay = 1
    let quarter : Bool := n ∈ (if u.seq.mode then [7457, 14913, 22371, 37281] else [7457, 14913, 22371, 29829])
    let half : Bool := n ∈ (if u.seq.mode then [14913, 37281] else [14913, 29829])
    let u1 := if quarter then u.quarter else u
    let u2 := if half then u1.half else u1
    let u3 := if restart && u.seq.mode then u2.quarter.half else u2
    u.sequencerTick = { u3 with seq := { u.seq with
      cycle := if restart ∨ n = (if u.seq.mode then 37282 else 29830) then 0 else n
      frameIrq := u.seq.frameIrq || (!u.seq.mode && !u.seq.irqInhibit && decide (29828 ≤ n ∧ n ≤ 29830))
      resetDelay := u.seq.resetDelay - 1 } }) ∧
  (∀ u : Apu, 0 < u.seq.resetDelay →
    (Apu.sequencerTick^[u.seq.resetDelay] u).seq.cycle = 0 ∧ (Apu.sequencerTick^[u.seq.resetDelay] u).seq.resetDelay = 0) ∧
  ∀ (s : State) (v : Byte),
    (busWrite s 0x4017 v).apu = { s.apu with seq := { s.apu.seq with
      mode := v.getLsbD 7, irqInhibit := v.getLsbD 6, frameIrq := s.apu.seq.frameIrq && !v.getLsbD 6
      resetDelay := if (s.cpu.cycles + 1) % 2 = 0 then 4 else 5 } }

/-! ### The Mapper (63_mapper.md) -/

/-- Banks and mirroring of the mapper variants. Program (R590, R593, R598, R584, of a storage that is not empty): Fixed mirrors
its ROM; SimpleBanked shows the selected bank of 16 KiB low and its last bank high; ScanlineIrq shows banks of 8 KiB, the
last always at 0xE000, the second-last and R6 exchanged by bit 6 of the select; bank numbers wrap at the ROM's length, and
a ROM write changes no byte of it. Registers (R593, R597, R585): a bank value is masked, and each of the eight registers of
ScanlineIrq takes its write alone. Character storage (R590, R593, R599): by the address, or by banks of 1 KiB with the two
halves exchanged by bit 7 of the select; written only where it is RAM (R586). Mirroring (R589, R590, R593, R600). Save memory
at 0x6000..0x7FFF: read and written whole but by ScanlineIrq, whose `ram_enable` makes it unclaimed and whose
`ram_protect` stops the write (R598, R603); nothing below is claimed. Empty claims nothing and takes nothing (R589). -/
def Obligations.ProgramBanks : Prop :=
  (∀ (p : ChipParams) (c : Cartridge) (a : Word) (v : Byte), a.toNat < 0x8000 → c.variant ≠ .empty →
    let shown : Bool := match c.variant with | .scanlineIrq r => r.ramEnable | _ => true
    let writable : Bool := match c.variant with | .scanlineIrq r => r.ramEnable && !r.ramProtect | _ => true
    if a.toNat < 0x6000 then cpuRead c a = none ∧ cpuWrite c p a v = c
    else
      cpuRead c a = (if shown then some (Cells.read c.prgRam (a.toNat - 0x6000)) else none) ∧
      cpuWrite c p a v = if writable then { c with prgRam := Cells.write c.prgRam (a.toNat - 0x6000) v } else c) ∧
  (∀ c : Cartridge, c.variant = .empty →
    (∀ (p : ChipParams) (a : Word) (v : Byte), cpuRead c a = none ∧ cpuWrite c p a v = c) ∧
    (∀ (a : BitVec 14) (v : Byte), ppuChrRead c a = none ∧ ppuChrWrite c a v = c) ∧
    (∀ ended re, onScanline c ended re = c) ∧ mapperIrq c = false) ∧
  (∀ (p : ChipParams) (c : Cartridge) (a : Word), 0x8000 ≤ a.toNat → 0 < c.prgLen →
    (c.variant = .fixed →
      cpuRead c a = some (Cells.read c.prg ((a.toNat - 0x8000) % c.prgLen)) ∧ ∀ v, cpuWrite c p a v = c) ∧
    (∀ bank v, c.variant = .simpleBanked bank →
      let c' := cpuWrite c p a v
      c' = { c with variant := .simpleBanked (v &&& p.bankMaskSimple) } ∧
      ∀ b : Word, 0x8000 ≤ b.toNat → cpuRead c' b = some (Cells.read c.prg
        ((if b.toNat < 0xC000 then (v &&& p.bankMaskSimple).toNat * 0x4000 + (b.toNat - 0x8000)
          else (c.prgLen / 0x4000 - 1) * 0x4000 + (b.toNat - 0xC000)) % c.prgLen))) ∧
    (∀ r, c.variant = .scanlineIrq r →
      let bank :=
        if 0xE000 ≤ a.toNat then c.prgLen / 0x2000 - 1
        else if 0xA000 ≤ a.toNat ∧ a.toNat < 0xC000 then r.r7.toNat
        else if (0xC000 ≤ a.toNat) = (r.bankSelect.getLsbD 6 = true) then r.r6.toNat
        else c.prgLen / 0x2000 - 2
      cpuRead c a = some (Cells.read c.prg ((bank * 0x2000 + a.toNat % 0x2000) % c.prgLen)))) ∧
  (∀ (p : ChipParams) (c : Cartridge) (r : ScanlineRegs) (a : Word) (v : Byte), 0x8000 ≤ a.toNat →
    c.variant = .scanlineIrq r →
    let i := r.bankSelect.toNat % 8
    let chr (j : Nat) (old : Byte) : Byte := if i = j then v &&& p.bankMaskChr1 else old
    let prg (j : Nat) (old : Byte) : Byte := if i = j then v &&& p.bankMaskPrg8 else old
    let r' : ScanlineRegs :=
      if a.toNat < 0xA000 then
        if a.toNat % 2 = 0 then { r with bankSelect := v }
        else { r with
          r0 := chr 0 r.r0, r1 := chr 1 r.r1, r2 := chr 2 r.r2, r3 := chr 3 r.r3, r4 := chr 4 r.r4, r5 := chr 5 r.r5
          r6 := prg 6 r.r6, r7 := prg 7 r.r7 }
      else if a.toNat < 0xC000 then
        if a.toNat % 2 = 0 then { r with mirror := v.getLsbD 0 }
        else { r with ramEnable := v.getLsbD 7, ramProtect := v.getLsbD 6 }
      else if a.toNat < 0xE000 then
        if a.toNat % 2 = 0 then { r with irqLatch := v } else { r with irqCounter := 0x00, irqReload := true }
      else
        if a.toNat % 2 = 0 then { r with irqEnabled := false, irqFlag := false } else { r with irqEnabled := true }
    cpuWrite c p a v = { c with variant := .scanlineIrq r' }) ∧
  (∀ (c : Cartridge) (a : BitVec 14) (v : Byte), a.toNat ≤ 0x1FFF → c.variant ≠ .empty → 0 < c.chrLen →
    let index : Nat :=
      match c.variant with
      | .scanlineIrq r =>
        let a' := if r.bankSelect.getLsbD 7 then (a.toNat + 0x1000) % 0x2000 else a.toNat
        let bank :=
          if a' < 0x0800 then r.r0.toNat / 2 * 2 + a' / 0x400 % 2
          else if a' < 0x1000 then r.r1.toNat / 2 * 2 + a' / 0x400 % 2
          else if a' < 0x1400 then r.r2.toNat
          else if a' < 0x1800 then r.r3.toNat
          else if a' < 0x1C00 then r.r4.toNat
          else r.r5.toNat
        bank * 0x400 + a.toNat % 0x400
      | _ => a.toNat
    ppuChrRead c a = some (Cells.read c.chr (index % c.chrLen)) ∧
      ppuChrWrite c a v = if c.chrIsRam then { c with chr := Cells.write c.chr (index % c.chrLen) v } else c) ∧
  ∀ c : Cartridge,
    mirroring c =
      match c.variant, c.mirroringHdr with
      | .empty, _ => .horizontal
      | _, .fourScreen => .fourScreen
      | .scanlineIrq r, _ => if r.mirror then .horizontal else .vertical
      | _, .horizontal => .horizontal
      | _, .vertical => .vertical

/-- The scanline counter of ScanlineIrq (R605, R597): after a latch value `n`, a reload and an enable are written, the
request is raised by the (n + 1)-th counted line and by no earlier one, and stays until 0xE000 is written. -/
def Obligations.ScanlineCounterRequests : Prop :=
  ∀ (p : ChipParams) (r : ScanlineRegs) (n : Byte) (k : Nat),
    let armed := (((r.write p 0xE000 0x00).write p 0xC000 n).write p 0xC001 0x00).write p 0xE001 0x00
    (ScanlineRegs.clock^[k] armed).irqFlag = decide (n.toNat + 1 ≤ k) ∧
    ((ScanlineRegs.clock^[k] armed).write p 0xE000 0x00).irqFlag = false

/-! ### The host (64_system_step_and_host.md) -/

/-- Cartridge load (R634, R587): the checks in their order, an id being supported where `SUPPORTED_MAPPERS` lists it and a
variant has it; a failure leaves the state as it was, a success replaces it by the power-on state of the image. A battery
cartridge loaded with a save buffer exports that buffer (R636, R650). The cartridge holds the image's bytes, 0x2000 writable
ones where the image has no character data, the save buffer or zeros, and extra name tables only where the header says
FourScreen (R66, R586). -/
def Obligations.CartridgeLoadChecks : Prop :=
  (∀ (image : Image) (save : Option (List Byte)) (draws : Draws) (chip : ChipParams) (prior : State),
    let r := loadCartridge image save draws chip (some prior)
    let supported := image.mapperId ∈ chip.supportedMappers ∧ image.mapperId ∈ [0, 2, 4]
    (¬ supported → r = (.error .unsupportedMapper, prior)) ∧
    (supported →
      (image.prgBanks = 0 ∨ image.prg.length ≠ image.prgBanks * 0x4000 ∨ image.chr.length ≠ image.chrBanks * 0x2000 ∨
        (∃ b, save = some b ∧ b.length ≠ 0x2000)) → r = (.error .malformedImage, prior)) ∧
    (supported → image.prgBanks ≠ 0 → image.prg.length = image.prgBanks * 0x4000 →
      image.chr.length = image.chrBanks * 0x2000 → (∀ b, save = some b → b.length = 0x2000) →
      ∃ v, variantOf image.mapperId = some v ∧
        r = (.ok (powerOn (image.cartridge save draws v) draws chip), powerOn (image.cartridge save draws v) draws chip))) ∧
  (∀ (image : Image) (b : List Byte) (draws : Draws) (chip : ChipParams) (v : Variant),
    b.length = 0x2000 → image.hasBattery = true →
    exportSaveMemory (powerOn (image.cartridge (some b) draws v) draws chip) = some b) ∧
  ∀ (image : Image) (save : Option (List Byte)) (draws : Draws) (v : Variant),
    let c := image.cartridge save draws v
    c.variant = v ∧ c.prgLen = image.prg.length ∧ (∀ k, Cells.read c.prg k = image.prg.getD k 0x00) ∧
    c.chrLen = (if image.chrBanks = 0 then 0x2000 else image.chr.length) ∧
    (∀ k, Cells.read c.chr k = image.chr.getD k 0x00) ∧ (c.chrIsRam = true ↔ image.chrBanks = 0) ∧
    (∀ k, Cells.read c.prgRam k = (save.getD []).getD k 0x00) ∧
    c.ntExtra = (if image.mirroringHdr = .fourScreen then draws.ntExtra else []) ∧
    c.mirroringHdr = image.mirroringHdr ∧ c.mapperId = image.mapperId ∧ c.hasBattery = image.hasBattery
end

