-- ==== Sys2Proof/Laws/Memory.lean ====
section
/-! SUPPORT. The laws of a sparse store: what a read after a write gives, that every operation keeps the canonical form
and the bound, and that stores in canonical form which read alike are equal. -/

namespace Sys2Proof.Machine

variable {width : Nat}

@[simp] theorem Cells.read_nil (k : Nat) : Cells.read ([] : Cells width) k = unlisted width := rfl

theorem Cells.wf_nil : Cells.wf ([] : Cells width) := by simp [Cells.wf]

theorem Cells.below_nil (n : Nat) : Cells.below ([] : Cells width) n := by simp [Cells.below]

theorem Cells.wf_tail {p : Nat × BitVec width} {m : Cells width} (h : Cells.wf (p :: m)) : Cells.wf m := by
  obtain ⟨h1, h2⟩ := h
  exact ⟨(List.pairwise_cons.1 h1).2, fun q hq => h2 q (List.mem_cons_of_mem _ hq)⟩

theorem Cells.wf_head_lt {p q : Nat × BitVec width} {m : Cells width} (h : Cells.wf (p :: m)) (hq : q ∈ m) : p.1 < q.1 :=
  (List.pairwise_cons.1 h.1).1 q hq

/-- An index below every listed one reads as unlisted. -/
theorem Cells.read_of_lt {m : Cells width} {k : Nat} (h : ∀ p ∈ m, k < p.1) : Cells.read m k = unlisted width := by
  cases m with
  | nil => rfl
  | cons p rest =>
    obtain ⟨j, u⟩ := p
    have hj : k < j := h (j, u) (by simp)
    simp [Cells.read, Nat.ne_of_lt hj, hj]

theorem Cells.read_consCell {m : Cells width} {k : Nat} (v : BitVec width) (h : ∀ p ∈ m, k < p.1) (j : Nat) :
    Cells.read (Cells.consCell k v m) j = if j = k then v else if j < k then unlisted width else Cells.read m j := by
  unfold Cells.consCell
  split
  · next hv =>
    subst hv
    split
    · next hj => subst hj; exact Cells.read_of_lt h
    · split
      · next hj => exact Cells.read_of_lt fun p hp => Nat.lt_trans hj (h p hp)
      · rfl
  · simp [Cells.read]

theorem Cells.wf_consCell {m : Cells width} {k : Nat} (v : BitVec width) (hm : Cells.wf m) (h : ∀ p ∈ m, k < p.1) :
    Cells.wf (Cells.consCell k v m) := by
  unfold Cells.consCell
  split
  · exact hm
  · next hv =>
    refine ⟨List.pairwise_cons.2 ⟨h, hm.1⟩, ?_⟩
    intro p hp
    rcases List.mem_cons.1 hp with rfl | hp
    · exact hv
    · exact hm.2 p hp

theorem Cells.mem_consCell {m : Cells width} {k : Nat} {v : BitVec width} {p : Nat × BitVec width}
    (hp : p ∈ Cells.consCell k v m) : p = (k, v) ∨ p ∈ m := by
  unfold Cells.consCell at hp
  split at hp
  · exact .inr hp
  · exact List.mem_cons.1 hp

/-- Every entry of a written store is the new one or an old one. -/
theorem Cells.mem_write {m : Cells width} {k : Nat} {v : BitVec width} {p : Nat × BitVec width}
    (hp : p ∈ Cells.write m k v) : p = (k, v) ∨ p ∈ m := by
  induction m with
  | nil => exact Cells.mem_consCell hp
  | cons q rest ih =>
    obtain ⟨j, u⟩ := q
    unfold Cells.write at hp
    split at hp
    · exact (Cells.mem_consCell hp).imp_right (List.mem_cons_of_mem _)
    · split at hp
      · exact Cells.mem_consCell hp
      · rcases List.mem_cons.1 hp with h | h
        · exact .inr (h ▸ List.mem_cons_self)
        · exact (ih h).imp_right (List.mem_cons_of_mem _)

/-- A write keeps the canonical form. -/
theorem Cells.wf_write {m : Cells width} (k : Nat) (v : BitVec width) (hm : Cells.wf m) : Cells.wf (Cells.write m k v) := by
  induction m with
  | nil => exact Cells.wf_consCell v Cells.wf_nil (by simp)
  | cons q rest ih =>
    obtain ⟨j, u⟩ := q
    have hrest := Cells.wf_tail hm
    unfold Cells.write
    split
    · next hk => subst hk; exact Cells.wf_consCell v hrest fun p hp => Cells.wf_head_lt hm hp
    · split
      · next hk =>
        refine Cells.wf_consCell v hm fun p hp => ?_
        rcases List.mem_cons.1 hp with rfl | hp
        · exact hk
        · exact Nat.lt_trans hk (Cells.wf_head_lt hm hp)
      · next h1 h2 =>
        have hw := ih hrest
        refine ⟨List.pairwise_cons.2 ⟨fun p hp => ?_, hw.1⟩, fun p hp => ?_⟩
        · rcases Cells.mem_write hp with rfl | hp
          · show j < k; omega
          · exact Cells.wf_head_lt hm hp
        · rcases List.mem_cons.1 hp with rfl | hp
          · exact hm.2 _ List.mem_cons_self
          · exact hw.2 p hp

/-- A write below `n` keeps every index below `n`. -/
theorem Cells.below_write {m : Cells width} {n k : Nat} (v : BitVec width) (hm : Cells.below m n) (hk : k < n) :
    Cells.below (Cells.write m k v) n := by
  intro p hp
  rcases Cells.mem_write hp with rfl | hp
  · exact hk
  · exact hm p hp

/-- What a read after a write gives: the value at the cell written, the old value everywhere else. -/
theorem Cells.read_write {m : Cells width} (hm : Cells.wf m) (k : Nat) (v : BitVec width) (j : Nat) :
    Cells.read (Cells.write m k v) j = if j = k then v else Cells.read m j := by
  induction m with
  | nil => simp [Cells.write, Cells.read_consCell]
  | cons q rest ih =>
    obtain ⟨i, u⟩ := q
    have hrest := Cells.wf_tail hm
    have hlt : ∀ p ∈ rest, i < p.1 := fun p hp => Cells.wf_head_lt hm hp
    unfold Cells.write
    split
    · next hk =>
      subst hk
      rw [Cells.read_consCell v hlt]
      by_cases hj : j = k <;> simp [Cells.read, hj]
    · split
      · next hk1 hk =>
        have hall : ∀ p ∈ (i, u) :: rest, k < p.1 := by
          intro p hp
          rcases List.mem_cons.1 hp with rfl | hp
          · exact hk
          · exact Nat.lt_trans hk (hlt p hp)
        rw [Cells.read_consCell v hall]
        by_cases hj : j = k
        · simp [hj]
        · by_cases hj2 : j < k
          · have : j < i := by omega
            simp [Cells.read, hj, hj2, Nat.ne_of_lt this, this]
          · simp [hj, hj2]
      · next h1 h2 =>
        have h3 : i < k := by omega
        by_cases hj : j = k
        · subst hj
          simp [Cells.read, h1, h2, ih hrest]
        · have hik : i ≠ k := by omega
          by_cases hji : j = i <;> by_cases hji2 : j < i <;> simp [Cells.read, hj, hji, hji2, hik, ih hrest]

@[simp] theorem Cells.read_write_same {m : Cells width} (hm : Cells.wf m) (k : Nat) (v : BitVec width) :
    Cells.read (Cells.write m k v) k = v := by
  simp [Cells.read_write hm]

theorem Cells.read_write_other {m : Cells width} (hm : Cells.wf m) {j k : Nat} (v : BitVec width) (h : j ≠ k) :
    Cells.read (Cells.write m k v) j = Cells.read m j := by
  simp [Cells.read_write hm, h]

/-- Writing a list of values keeps the canonical form. -/
theorem Cells.wf_writeList (vs : List (BitVec width)) {m : Cells width} (k : Nat) (hm : Cells.wf m) :
    Cells.wf (Cells.writeList m k vs) := by
  induction vs generalizing m k with
  | nil => exact hm
  | cons v vs ih => exact ih (k + 1) (Cells.wf_write k v hm)

/-- Writing a list of values that ends at or below `n` keeps every index below `n`. -/
theorem Cells.below_writeList (vs : List (BitVec width)) {m : Cells width} {n k : Nat} (hm : Cells.below m n)
    (hk : k + vs.length ≤ n) : Cells.below (Cells.writeList m k vs) n := by
  induction vs generalizing m k with
  | nil => exact hm
  | cons v vs ih =>
    simp only [List.length_cons] at hk
    exact ih (Cells.below_write v hm (by omega)) (by omega)

theorem Cells.mem_ofList {vs : List (BitVec width)} {k : Nat} {p : Nat × BitVec width} (hp : p ∈ Cells.ofList vs k) :
    k ≤ p.1 ∧ p.1 < k + vs.length := by
  induction vs generalizing k with
  | nil => simp [Cells.ofList] at hp
  | cons v vs ih =>
    rcases Cells.mem_consCell hp with rfl | hp
    · simp
    · have := ih hp
      simp only [List.length_cons]
      omega

/-- The store of a list is in canonical form. -/
theorem Cells.wf_ofList (vs : List (BitVec width)) (k : Nat) : Cells.wf (Cells.ofList vs k) := by
  induction vs generalizing k with
  | nil => exact Cells.wf_nil
  | cons v vs ih =>
    refine Cells.wf_consCell v (ih (k + 1)) fun p hp => ?_
    have := (Cells.mem_ofList hp).1
    omega

theorem Cells.below_ofList (vs : List (BitVec width)) (k : Nat) : Cells.below (Cells.ofList vs k) (k + vs.length) :=
  fun _ hp => (Cells.mem_ofList hp).2

/-- Stores in canonical form that read alike are equal lists. -/
theorem Cells.ext_read {m m' : Cells width} (hm : Cells.wf m) (hm' : Cells.wf m')
    (h : ∀ k, Cells.read m k = Cells.read m' k) : m = m' := by
  induction m generalizing m' with
  | nil =>
    cases m' with
    | nil => rfl
    | cons p rest =>
      obtain ⟨j, u⟩ := p
      have := h j
      simp only [Cells.read, if_true] at this
      exact absurd this.symm (hm'.2 (j, u) List.mem_cons_self)
  | cons p rest ih =>
    obtain ⟨j, u⟩ := p
    cases m' with
    | nil =>
      have := h j
      simp only [Cells.read, if_true] at this
      exact absurd this (hm.2 (j, u) List.mem_cons_self)
    | cons q rest' =>
      obtain ⟨i, w⟩ := q
      have hu : u ≠ unlisted width := hm.2 (j, u) List.mem_cons_self
      have hw : w ≠ unlisted width := hm'.2 (i, w) List.mem_cons_self
      have hij : i = j := by
        rcases Nat.lt_trichotomy i j with hlt | heq | hgt
        · have := h i
          simp [Cells.read, Nat.ne_of_lt hlt, hlt] at this
          exact absurd this.symm hw
        · exact heq
        · have := h j
          simp [Cells.read, Nat.ne_of_lt hgt, hgt] at this
          exact absurd this hu
      subst hij
      have huw : u = w := by simpa [Cells.read] using h i
      subst huw
      congr 1
      refine ih (Cells.wf_tail hm) (Cells.wf_tail hm') fun k => ?_
      rcases Nat.lt_trichotomy k i with hlt | heq | hgt
      · rw [Cells.read_of_lt fun p hp => Nat.lt_trans hlt (Cells.wf_head_lt hm hp),
          Cells.read_of_lt fun p hp => Nat.lt_trans hlt (Cells.wf_head_lt hm' hp)]
      · subst heq
        rw [Cells.read_of_lt fun p hp => Cells.wf_head_lt hm hp,
          Cells.read_of_lt fun p hp => Cells.wf_head_lt hm' hp]
      · have := h k
        have h1 : ¬ k = i := by omega
        have h2 : ¬ k < i := by omega
        simpa [Cells.read, h1, h2] using this

end Sys2Proof.Machine
end

