-- ==== Sys2Proof/Laws/State.lean ====
section
/-! SUPPORT. One lemma per field per named update: what each register write of Flags.lean leaves in every field of the
processor, and what a change of the processor leaves in every field of the state. All hold by definition. -/

namespace Sys2Proof.Machine

/-! ### `onCpu` -/

@[simp] theorem onCpu_cpu (f : Cpu → Cpu) (s : State) : (onCpu f s).cpu = f s.cpu := rfl
@[simp] theorem onCpu_ram (f : Cpu → Cpu) (s : State) : (onCpu f s).ram = s.ram := rfl
@[simp] theorem onCpu_openBus (f : Cpu → Cpu) (s : State) : (onCpu f s).openBus = s.openBus := rfl
@[simp] theorem onCpu_pad1 (f : Cpu → Cpu) (s : State) : (onCpu f s).pad1 = s.pad1 := rfl
@[simp] theorem onCpu_pad2 (f : Cpu → Cpu) (s : State) : (onCpu f s).pad2 = s.pad2 := rfl
@[simp] theorem onCpu_strobe (f : Cpu → Cpu) (s : State) : (onCpu f s).strobe = s.strobe := rfl
@[simp] theorem onCpu_ppu (f : Cpu → Cpu) (s : State) : (onCpu f s).ppu = s.ppu := rfl
@[simp] theorem onCpu_apu (f : Cpu → Cpu) (s : State) : (onCpu f s).apu = s.apu := rfl
@[simp] theorem onCpu_cart (f : Cpu → Cpu) (s : State) : (onCpu f s).cart = s.cart := rfl
@[simp] theorem onCpu_chip (f : Cpu → Cpu) (s : State) : (onCpu f s).chip = s.chip := rfl

/-! ### `setNZ` -/

@[simp] theorem setNZ_a (b : Byte) (k : Cpu) : (setNZ b k).a = k.a := rfl
@[simp] theorem setNZ_x (b : Byte) (k : Cpu) : (setNZ b k).x = k.x := rfl
@[simp] theorem setNZ_y (b : Byte) (k : Cpu) : (setNZ b k).y = k.y := rfl
@[simp] theorem setNZ_s (b : Byte) (k : Cpu) : (setNZ b k).s = k.s := rfl
@[simp] theorem setNZ_pc (b : Byte) (k : Cpu) : (setNZ b k).pc = k.pc := rfl
@[simp] theorem setNZ_c (b : Byte) (k : Cpu) : (setNZ b k).c = k.c := rfl
@[simp] theorem setNZ_z (b : Byte) (k : Cpu) : (setNZ b k).z = (b == 0) := rfl
@[simp] theorem setNZ_i (b : Byte) (k : Cpu) : (setNZ b k).i = k.i := rfl
@[simp] theorem setNZ_d (b : Byte) (k : Cpu) : (setNZ b k).d = k.d := rfl
@[simp] theorem setNZ_v (b : Byte) (k : Cpu) : (setNZ b k).v = k.v := rfl
@[simp] theorem setNZ_n (b : Byte) (k : Cpu) : (setNZ b k).n = b.getLsbD 7 := rfl
@[simp] theorem setNZ_nmiPrev (b : Byte) (k : Cpu) : (setNZ b k).nmiPrev = k.nmiPrev := rfl
@[simp] theorem setNZ_nmiPending (b : Byte) (k : Cpu) : (setNZ b k).nmiPending = k.nmiPending := rfl
@[simp] theorem setNZ_tick (b : Byte) (k : Cpu) : (setNZ b k).tick = k.tick := rfl
@[simp] theorem setNZ_cycles (b : Byte) (k : Cpu) : (setNZ b k).cycles = k.cycles := rfl
@[simp] theorem setNZ_jammed (b : Byte) (k : Cpu) : (setNZ b k).jammed = k.jammed := rfl
@[simp] theorem setNZ_dmaPage (b : Byte) (k : Cpu) : (setNZ b k).dmaPage = k.dmaPage := rfl
@[simp] theorem setNZ_micro (b : Byte) (k : Cpu) : (setNZ b k).micro = k.micro := rfl

/-! ### `unpackP` -/

@[simp] theorem unpackP_a (b : Byte) (k : Cpu) : (unpackP b k).a = k.a := rfl
@[simp] theorem unpackP_x (b : Byte) (k : Cpu) : (unpackP b k).x = k.x := rfl
@[simp] theorem unpackP_y (b : Byte) (k : Cpu) : (unpackP b k).y = k.y := rfl
@[simp] theorem unpackP_s (b : Byte) (k : Cpu) : (unpackP b k).s = k.s := rfl
@[simp] theorem unpackP_pc (b : Byte) (k : Cpu) : (unpackP b k).pc = k.pc := rfl
@[simp] theorem unpackP_c (b : Byte) (k : Cpu) : (unpackP b k).c = b.getLsbD 0 := rfl
@[simp] theorem unpackP_z (b : Byte) (k : Cpu) : (unpackP b k).z = b.getLsbD 1 := rfl
@[simp] theorem unpackP_i (b : Byte) (k : Cpu) : (unpackP b k).i = b.getLsbD 2 := rfl
@[simp] theorem unpackP_d (b : Byte) (k : Cpu) : (unpackP b k).d = b.getLsbD 3 := rfl
@[simp] theorem unpackP_v (b : Byte) (k : Cpu) : (unpackP b k).v = b.getLsbD 6 := rfl
@[simp] theorem unpackP_n (b : Byte) (k : Cpu) : (unpackP b k).n = b.getLsbD 7 := rfl
@[simp] theorem unpackP_nmiPrev (b : Byte) (k : Cpu) : (unpackP b k).nmiPrev = k.nmiPrev := rfl
@[simp] theorem unpackP_nmiPending (b : Byte) (k : Cpu) : (unpackP b k).nmiPending = k.nmiPending := rfl
@[simp] theorem unpackP_tick (b : Byte) (k : Cpu) : (unpackP b k).tick = k.tick := rfl
@[simp] theorem unpackP_cycles (b : Byte) (k : Cpu) : (unpackP b k).cycles = k.cycles := rfl
@[simp] theorem unpackP_jammed (b : Byte) (k : Cpu) : (unpackP b k).jammed = k.jammed := rfl
@[simp] theorem unpackP_dmaPage (b : Byte) (k : Cpu) : (unpackP b k).dmaPage = k.dmaPage := rfl
@[simp] theorem unpackP_micro (b : Byte) (k : Cpu) : (unpackP b k).micro = k.micro := rfl

/-! ### `loadA` -/

@[simp] theorem loadA_a (b : Byte) (k : Cpu) : (loadA b k).a = b := rfl
@[simp] theorem loadA_x (b : Byte) (k : Cpu) : (loadA b k).x = k.x := rfl
@[simp] theorem loadA_y (b : Byte) (k : Cpu) : (loadA b k).y = k.y := rfl
@[simp] theorem loadA_s (b : Byte) (k : Cpu) : (loadA b k).s = k.s := rfl
@[simp] theorem loadA_pc (b : Byte) (k : Cpu) : (loadA b k).pc = k.pc := rfl
@[simp] theorem loadA_c (b : Byte) (k : Cpu) : (loadA b k).c = k.c := rfl
@[simp] theorem loadA_z (b : Byte) (k : Cpu) : (loadA b k).z = (b == 0) := rfl
@[simp] theorem loadA_i (b : Byte) (k : Cpu) : (loadA b k).i = k.i := rfl
@[simp] theorem loadA_d (b : Byte) (k : Cpu) : (loadA b k).d = k.d := rfl
@[simp] theorem loadA_v (b : Byte) (k : Cpu) : (loadA b k).v = k.v := rfl
@[simp] theorem loadA_n (b : Byte) (k : Cpu) : (loadA b k).n = b.getLsbD 7 := rfl
@[simp] theorem loadA_nmiPrev (b : Byte) (k : Cpu) : (loadA b k).nmiPrev = k.nmiPrev := rfl
@[simp] theorem loadA_nmiPending (b : Byte) (k : Cpu) : (loadA b k).nmiPending = k.nmiPending := rfl
@[simp] theorem loadA_tick (b : Byte) (k : Cpu) : (loadA b k).tick = k.tick := rfl
@[simp] theorem loadA_cycles (b : Byte) (k : Cpu) : (loadA b k).cycles = k.cycles := rfl
@[simp] theorem loadA_jammed (b : Byte) (k : Cpu) : (loadA b k).jammed = k.jammed := rfl
@[simp] theorem loadA_dmaPage (b : Byte) (k : Cpu) : (loadA b k).dmaPage = k.dmaPage := rfl
@[simp] theorem loadA_micro (b : Byte) (k : Cpu) : (loadA b k).micro = k.micro := rfl

/-! ### `loadX` -/

@[simp] theorem loadX_a (b : Byte) (k : Cpu) : (loadX b k).a = k.a := rfl
@[simp] theorem loadX_x (b : Byte) (k : Cpu) : (loadX b k).x = b := rfl
@[simp] theorem loadX_y (b : Byte) (k : Cpu) : (loadX b k).y = k.y := rfl
@[simp] theorem loadX_s (b : Byte) (k : Cpu) : (loadX b k).s = k.s := rfl
@[simp] theorem loadX_pc (b : Byte) (k : Cpu) : (loadX b k).pc = k.pc := rfl
@[simp] theorem loadX_c (b : Byte) (k : Cpu) : (loadX b k).c = k.c := rfl
@[simp] theorem loadX_z (b : Byte) (k : Cpu) : (loadX b k).z = (b == 0) := rfl
@[simp] theorem loadX_i (b : Byte) (k : Cpu) : (loadX b k).i = k.i := rfl
@[simp] theorem loadX_d (b : Byte) (k : Cpu) : (loadX b k).d = k.d := rfl
@[simp] theorem loadX_v (b : Byte) (k : Cpu) : (loadX b k).v = k.v := rfl
@[simp] theorem loadX_n (b : Byte) (k : Cpu) : (loadX b k).n = b.getLsbD 7 := rfl
@[simp] theorem loadX_nmiPrev (b : Byte) (k : Cpu) : (loadX b k).nmiPrev = k.nmiPrev := rfl
@[simp] theorem loadX_nmiPending (b : Byte) (k : Cpu) : (loadX b k).nmiPending = k.nmiPending := rfl
@[simp] theorem loadX_tick (b : Byte) (k : Cpu) : (loadX b k).tick = k.tick := rfl
@[simp] theorem loadX_cycles (b : Byte) (k : Cpu) : (loadX b k).cycles = k.cycles := rfl
@[simp] theorem loadX_jammed (b : Byte) (k : Cpu) : (loadX b k).jammed = k.jammed := rfl
@[simp] theorem loadX_dmaPage (b : Byte) (k : Cpu) : (loadX b k).dmaPage = k.dmaPage := rfl
@[simp] theorem loadX_micro (b : Byte) (k : Cpu) : (loadX b k).micro = k.micro := rfl

/-! ### `loadY` -/

@[simp] theorem loadY_a (b : Byte) (k : Cpu) : (loadY b k).a = k.a := rfl
@[simp] theorem loadY_x (b : Byte) (k : Cpu) : (loadY b k).x = k.x := rfl
@[simp] theorem loadY_y (b : Byte) (k : Cpu) : (loadY b k).y = b := rfl
@[simp] theorem loadY_s (b : Byte) (k : Cpu) : (loadY b k).s = k.s := rfl
@[simp] theorem loadY_pc (b : Byte) (k : Cpu) : (loadY b k).pc = k.pc := rfl
@[simp] theorem loadY_c (b : Byte) (k : Cpu) : (loadY b k).c = k.c := rfl
@[simp] theorem loadY_z (b : Byte) (k : Cpu) : (loadY b k).z = (b == 0) := rfl
@[simp] theorem loadY_i (b : Byte) (k : Cpu) : (loadY b k).i = k.i := rfl
@[simp] theorem loadY_d (b : Byte) (k : Cpu) : (loadY b k).d = k.d := rfl
@[simp] theorem loadY_v (b : Byte) (k : Cpu) : (loadY b k).v = k.v := rfl
@[simp] theorem loadY_n (b : Byte) (k : Cpu) : (loadY b k).n = b.getLsbD 7 := rfl
@[simp] theorem loadY_nmiPrev (b : Byte) (k : Cpu) : (loadY b k).nmiPrev = k.nmiPrev := rfl
@[simp] theorem loadY_nmiPending (b : Byte) (k : Cpu) : (loadY b k).nmiPending = k.nmiPending := rfl
@[simp] theorem loadY_tick (b : Byte) (k : Cpu) : (loadY b k).tick = k.tick := rfl
@[simp] theorem loadY_cycles (b : Byte) (k : Cpu) : (loadY b k).cycles = k.cycles := rfl
@[simp] theorem loadY_jammed (b : Byte) (k : Cpu) : (loadY b k).jammed = k.jammed := rfl
@[simp] theorem loadY_dmaPage (b : Byte) (k : Cpu) : (loadY b k).dmaPage = k.dmaPage := rfl
@[simp] theorem loadY_micro (b : Byte) (k : Cpu) : (loadY b k).micro = k.micro := rfl

/-! ### `setC` -/

@[simp] theorem setC_a (b : Bool) (k : Cpu) : (setC b k).a = k.a := rfl
@[simp] theorem setC_x (b : Bool) (k : Cpu) : (setC b k).x = k.x := rfl
@[simp] theorem setC_y (b : Bool) (k : Cpu) : (setC b k).y = k.y := rfl
@[simp] theorem setC_s (b : Bool) (k : Cpu) : (setC b k).s = k.s := rfl
@[simp] theorem setC_pc (b : Bool) (k : Cpu) : (setC b k).pc = k.pc := rfl
@[simp] theorem setC_c (b : Bool) (k : Cpu) : (setC b k).c = b := rfl
@[simp] theorem setC_z (b : Bool) (k : Cpu) : (setC b k).z = k.z := rfl
@[simp] theorem setC_i (b : Bool) (k : Cpu) : (setC b k).i = k.i := rfl
@[simp] theorem setC_d (b : Bool) (k : Cpu) : (setC b k).d = k.d := rfl
@[simp] theorem setC_v (b : Bool) (k : Cpu) : (setC b k).v = k.v := rfl
@[simp] theorem setC_n (b : Bool) (k : Cpu) : (setC b k).n = k.n := rfl
@[simp] theorem setC_nmiPrev (b : Bool) (k : Cpu) : (setC b k).nmiPrev = k.nmiPrev := rfl
@[simp] theorem setC_nmiPending (b : Bool) (k : Cpu) : (setC b k).nmiPending = k.nmiPending := rfl
@[simp] theorem setC_tick (b : Bool) (k : Cpu) : (setC b k).tick = k.tick := rfl
@[simp] theorem setC_cycles (b : Bool) (k : Cpu) : (setC b k).cycles = k.cycles := rfl
@[simp] theorem setC_jammed (b : Bool) (k : Cpu) : (setC b k).jammed = k.jammed := rfl
@[simp] theorem setC_dmaPage (b : Bool) (k : Cpu) : (setC b k).dmaPage = k.dmaPage := rfl
@[simp] theorem setC_micro (b : Bool) (k : Cpu) : (setC b k).micro = k.micro := rfl

/-! ### `setI` -/

@[simp] theorem setI_a (b : Bool) (k : Cpu) : (setI b k).a = k.a := rfl
@[simp] theorem setI_x (b : Bool) (k : Cpu) : (setI b k).x = k.x := rfl
@[simp] theorem setI_y (b : Bool) (k : Cpu) : (setI b k).y = k.y := rfl
@[simp] theorem setI_s (b : Bool) (k : Cpu) : (setI b k).s = k.s := rfl
@[simp] theorem setI_pc (b : Bool) (k : Cpu) : (setI b k).pc = k.pc := rfl
@[simp] theorem setI_c (b : Bool) (k : Cpu) : (setI b k).c = k.c := rfl
@[simp] theorem setI_z (b : Bool) (k : Cpu) : (setI b k).z = k.z := rfl
@[simp] theorem setI_i (b : Bool) (k : Cpu) : (setI b k).i = b := rfl
@[simp] theorem setI_d (b : Bool) (k : Cpu) : (setI b k).d = k.d := rfl
@[simp] theorem setI_v (b : Bool) (k : Cpu) : (setI b k).v = k.v := rfl
@[simp] theorem setI_n (b : Bool) (k : Cpu) : (setI b k).n = k.n := rfl
@[simp] theorem setI_nmiPrev (b : Bool) (k : Cpu) : (setI b k).nmiPrev = k.nmiPrev := rfl
@[simp] theorem setI_nmiPending (b : Bool) (k : Cpu) : (setI b k).nmiPending = k.nmiPending := rfl
@[simp] theorem setI_tick (b : Bool) (k : Cpu) : (setI b k).tick = k.tick := rfl
@[simp] theorem setI_cycles (b : Bool) (k : Cpu) : (setI b k).cycles = k.cycles := rfl
@[simp] theorem setI_jammed (b : Bool) (k : Cpu) : (setI b k).jammed = k.jammed := rfl
@[simp] theorem setI_dmaPage (b : Bool) (k : Cpu) : (setI b k).dmaPage = k.dmaPage := rfl
@[simp] theorem setI_micro (b : Bool) (k : Cpu) : (setI b k).micro = k.micro := rfl

/-! ### `setD` -/

@[simp] theorem setD_a (b : Bool) (k : Cpu) : (setD b k).a = k.a := rfl
@[simp] theorem setD_x (b : Bool) (k : Cpu) : (setD b k).x = k.x := rfl
@[simp] theorem setD_y (b : Bool) (k : Cpu) : (setD b k).y = k.y := rfl
@[simp] theorem setD_s (b : Bool) (k : Cpu) : (setD b k).s = k.s := rfl
@[simp] theorem setD_pc (b : Bool) (k : Cpu) : (setD b k).pc = k.pc := rfl
@[simp] theorem setD_c (b : Bool) (k : Cpu) : (setD b k).c = k.c := rfl
@[simp] theorem setD_z (b : Bool) (k : Cpu) : (setD b k).z = k.z := rfl
@[simp] theorem setD_i (b : Bool) (k : Cpu) : (setD b k).i = k.i := rfl
@[simp] theorem setD_d (b : Bool) (k : Cpu) : (setD b k).d = b := rfl
@[simp] theorem setD_v (b : Bool) (k : Cpu) : (setD b k).v = k.v := rfl
@[simp] theorem setD_n (b : Bool) (k : Cpu) : (setD b k).n = k.n := rfl
@[simp] theorem setD_nmiPrev (b : Bool) (k : Cpu) : (setD b k).nmiPrev = k.nmiPrev := rfl
@[simp] theorem setD_nmiPending (b : Bool) (k : Cpu) : (setD b k).nmiPending = k.nmiPending := rfl
@[simp] theorem setD_tick (b : Bool) (k : Cpu) : (setD b k).tick = k.tick := rfl
@[simp] theorem setD_cycles (b : Bool) (k : Cpu) : (setD b k).cycles = k.cycles := rfl
@[simp] theorem setD_jammed (b : Bool) (k : Cpu) : (setD b k).jammed = k.jammed := rfl
@[simp] theorem setD_dmaPage (b : Bool) (k : Cpu) : (setD b k).dmaPage = k.dmaPage := rfl
@[simp] theorem setD_micro (b : Bool) (k : Cpu) : (setD b k).micro = k.micro := rfl

/-! ### `setV` -/

@[simp] theorem setV_a (b : Bool) (k : Cpu) : (setV b k).a = k.a := rfl
@[simp] theorem setV_x (b : Bool) (k : Cpu) : (setV b k).x = k.x := rfl
@[simp] theorem setV_y (b : Bool) (k : Cpu) : (setV b k).y = k.y := rfl
@[simp] theorem setV_s (b : Bool) (k : Cpu) : (setV b k).s = k.s := rfl
@[simp] theorem setV_pc (b : Bool) (k : Cpu) : (setV b k).pc = k.pc := rfl
@[simp] theorem setV_c (b : Bool) (k : Cpu) : (setV b k).c = k.c := rfl
@[simp] theorem setV_z (b : Bool) (k : Cpu) : (setV b k).z = k.z := rfl
@[simp] theorem setV_i (b : Bool) (k : Cpu) : (setV b k).i = k.i := rfl
@[simp] theorem setV_d (b : Bool) (k : Cpu) : (setV b k).d = k.d := rfl
@[simp] theorem setV_v (b : Bool) (k : Cpu) : (setV b k).v = b := rfl
@[simp] theorem setV_n (b : Bool) (k : Cpu) : (setV b k).n = k.n := rfl
@[simp] theorem setV_nmiPrev (b : Bool) (k : Cpu) : (setV b k).nmiPrev = k.nmiPrev := rfl
@[simp] theorem setV_nmiPending (b : Bool) (k : Cpu) : (setV b k).nmiPending = k.nmiPending := rfl
@[simp] theorem setV_tick (b : Bool) (k : Cpu) : (setV b k).tick = k.tick := rfl
@[simp] theorem setV_cycles (b : Bool) (k : Cpu) : (setV b k).cycles = k.cycles := rfl
@[simp] theorem setV_jammed (b : Bool) (k : Cpu) : (setV b k).jammed = k.jammed := rfl
@[simp] theorem setV_dmaPage (b : Bool) (k : Cpu) : (setV b k).dmaPage = k.dmaPage := rfl
@[simp] theorem setV_micro (b : Bool) (k : Cpu) : (setV b k).micro = k.micro := rfl

/-! ### `setS` -/

@[simp] theorem setS_a (b : Byte) (k : Cpu) : (setS b k).a = k.a := rfl
@[simp] theorem setS_x (b : Byte) (k : Cpu) : (setS b k).x = k.x := rfl
@[simp] theorem setS_y (b : Byte) (k : Cpu) : (setS b k).y = k.y := rfl
@[simp] theorem setS_s (b : Byte) (k : Cpu) : (setS b k).s = b := rfl
@[simp] theorem setS_pc (b : Byte) (k : Cpu) : (setS b k).pc = k.pc := rfl
@[simp] theorem setS_c (b : Byte) (k : Cpu) : (setS b k).c = k.c := rfl
@[simp] theorem setS_z (b : Byte) (k : Cpu) : (setS b k).z = k.z := rfl
@[simp] theorem setS_i (b : Byte) (k : Cpu) : (setS b k).i = k.i := rfl
@[simp] theorem setS_d (b : Byte) (k : Cpu) : (setS b k).d = k.d := rfl
@[simp] theorem setS_v (b : Byte) (k : Cpu) : (setS b k).v = k.v := rfl
@[simp] theorem setS_n (b : Byte) (k : Cpu) : (setS b k).n = k.n := rfl
@[simp] theorem setS_nmiPrev (b : Byte) (k : Cpu) : (setS b k).nmiPrev = k.nmiPrev := rfl
@[simp] theorem setS_nmiPending (b : Byte) (k : Cpu) : (setS b k).nmiPending = k.nmiPending := rfl
@[simp] theorem setS_tick (b : Byte) (k : Cpu) : (setS b k).tick = k.tick := rfl
@[simp] theorem setS_cycles (b : Byte) (k : Cpu) : (setS b k).cycles = k.cycles := rfl
@[simp] theorem setS_jammed (b : Byte) (k : Cpu) : (setS b k).jammed = k.jammed := rfl
@[simp] theorem setS_dmaPage (b : Byte) (k : Cpu) : (setS b k).dmaPage = k.dmaPage := rfl
@[simp] theorem setS_micro (b : Byte) (k : Cpu) : (setS b k).micro = k.micro := rfl

/-! ### `setPc` -/

@[simp] theorem setPc_a (b : Word) (k : Cpu) : (setPc b k).a = k.a := rfl
@[simp] theorem setPc_x (b : Word) (k : Cpu) : (setPc b k).x = k.x := rfl
@[simp] theorem setPc_y (b : Word) (k : Cpu) : (setPc b k).y = k.y := rfl
@[simp] theorem setPc_s (b : Word) (k : Cpu) : (setPc b k).s = k.s := rfl
@[simp] theorem setPc_pc (b : Word) (k : Cpu) : (setPc b k).pc = b := rfl
@[simp] theorem setPc_c (b : Word) (k : Cpu) : (setPc b k).c = k.c := rfl
@[simp] theorem setPc_z (b : Word) (k : Cpu) : (setPc b k).z = k.z := rfl
@[simp] theorem setPc_i (b : Word) (k : Cpu) : (setPc b k).i = k.i := rfl
@[simp] theorem setPc_d (b : Word) (k : Cpu) : (setPc b k).d = k.d := rfl
@[simp] theorem setPc_v (b : Word) (k : Cpu) : (setPc b k).v = k.v := rfl
@[simp] theorem setPc_n (b : Word) (k : Cpu) : (setPc b k).n = k.n := rfl
@[simp] theorem setPc_nmiPrev (b : Word) (k : Cpu) : (setPc b k).nmiPrev = k.nmiPrev := rfl
@[simp] theorem setPc_nmiPending (b : Word) (k : Cpu) : (setPc b k).nmiPending = k.nmiPending := rfl
@[simp] theorem setPc_tick (b : Word) (k : Cpu) : (setPc b k).tick = k.tick := rfl
@[simp] theorem setPc_cycles (b : Word) (k : Cpu) : (setPc b k).cycles = k.cycles := rfl
@[simp] theorem setPc_jammed (b : Word) (k : Cpu) : (setPc b k).jammed = k.jammed := rfl
@[simp] theorem setPc_dmaPage (b : Word) (k : Cpu) : (setPc b k).dmaPage = k.dmaPage := rfl
@[simp] theorem setPc_micro (b : Word) (k : Cpu) : (setPc b k).micro = k.micro := rfl

/-! ### `compareFlags` -/

@[simp] theorem compareFlags_a (r m : Byte) (k : Cpu) : (compareFlags r m k).a = k.a := rfl
@[simp] theorem compareFlags_x (r m : Byte) (k : Cpu) : (compareFlags r m k).x = k.x := rfl
@[simp] theorem compareFlags_y (r m : Byte) (k : Cpu) : (compareFlags r m k).y = k.y := rfl
@[simp] theorem compareFlags_s (r m : Byte) (k : Cpu) : (compareFlags r m k).s = k.s := rfl
@[simp] theorem compareFlags_pc (r m : Byte) (k : Cpu) : (compareFlags r m k).pc = k.pc := rfl
@[simp] theorem compareFlags_c (r m : Byte) (k : Cpu) : (compareFlags r m k).c = decide (m.toNat ≤ r.toNat) := rfl
@[simp] theorem compareFlags_z (r m : Byte) (k : Cpu) : (compareFlags r m k).z = (r == m) := rfl
@[simp] theorem compareFlags_i (r m : Byte) (k : Cpu) : (compareFlags r m k).i = k.i := rfl
@[simp] theorem compareFlags_d (r m : Byte) (k : Cpu) : (compareFlags r m k).d = k.d := rfl
@[simp] theorem compareFlags_v (r m : Byte) (k : Cpu) : (compareFlags r m k).v = k.v := rfl
@[simp] theorem compareFlags_n (r m : Byte) (k : Cpu) : (compareFlags r m k).n = (r - m).getLsbD 7 := rfl
@[simp] theorem compareFlags_nmiPrev (r m : Byte) (k : Cpu) : (compareFlags r m k).nmiPrev = k.nmiPrev := rfl
@[simp] theorem compareFlags_nmiPending (r m : Byte) (k : Cpu) : (compareFlags r m k).nmiPending = k.nmiPending := rfl
@[simp] theorem compareFlags_tick (r m : Byte) (k : Cpu) : (compareFlags r m k).tick = k.tick := rfl
@[simp] theorem compareFlags_cycles (r m : Byte) (k : Cpu) : (compareFlags r m k).cycles = k.cycles := rfl
@[simp] theorem compareFlags_jammed (r m : Byte) (k : Cpu) : (compareFlags r m k).jammed = k.jammed := rfl
@[simp] theorem compareFlags_dmaPage (r m : Byte) (k : Cpu) : (compareFlags r m k).dmaPage = k.dmaPage := rfl
@[simp] theorem compareFlags_micro (r m : Byte) (k : Cpu) : (compareFlags r m k).micro = k.micro := rfl

/-! ### `bitFlags` -/

@[simp] theorem bitFlags_a (b : Byte) (k : Cpu) : (bitFlags b k).a = k.a := rfl
@[simp] theorem bitFlags_x (b : Byte) (k : Cpu) : (bitFlags b k).x = k.x := rfl
@[simp] theorem bitFlags_y (b : Byte) (k : Cpu) : (bitFlags b k).y = k.y := rfl
@[simp] theorem bitFlags_s (b : Byte) (k : Cpu) : (bitFlags b k).s = k.s := rfl
@[simp] theorem bitFlags_pc (b : Byte) (k : Cpu) : (bitFlags b k).pc = k.pc := rfl
@[simp] theorem bitFlags_c (b : Byte) (k : Cpu) : (bitFlags b k).c = k.c := rfl
@[simp] theorem bitFlags_z (b : Byte) (k : Cpu) : (bitFlags b k).z = (k.a &&& b == 0) := rfl
@[simp] theorem bitFlags_i (b : Byte) (k : Cpu) : (bitFlags b k).i = k.i := rfl
@[simp] theorem bitFlags_d (b : Byte) (k : Cpu) : (bitFlags b k).d = k.d := rfl
@[simp] theorem bitFlags_v (b : Byte) (k : Cpu) : (bitFlags b k).v = b.getLsbD 6 := rfl
@[simp] theorem bitFlags_n (b : Byte) (k : Cpu) : (bitFlags b k).n = b.getLsbD 7 := rfl
@[simp] theorem bitFlags_nmiPrev (b : Byte) (k : Cpu) : (bitFlags b k).nmiPrev = k.nmiPrev := rfl
@[simp] theorem bitFlags_nmiPending (b : Byte) (k : Cpu) : (bitFlags b k).nmiPending = k.nmiPending := rfl
@[simp] theorem bitFlags_tick (b : Byte) (k : Cpu) : (bitFlags b k).tick = k.tick := rfl
@[simp] theorem bitFlags_cycles (b : Byte) (k : Cpu) : (bitFlags b k).cycles = k.cycles := rfl
@[simp] theorem bitFlags_jammed (b : Byte) (k : Cpu) : (bitFlags b k).jammed = k.jammed := rfl
@[simp] theorem bitFlags_dmaPage (b : Byte) (k : Cpu) : (bitFlags b k).dmaPage = k.dmaPage := rfl
@[simp] theorem bitFlags_micro (b : Byte) (k : Cpu) : (bitFlags b k).micro = k.micro := rfl

/-! ### `addToA` -/

@[simp] theorem addToA_a (b : Byte) (k : Cpu) : (addToA b k).a = (addWithCarry k.a b k.c).1 := rfl
@[simp] theorem addToA_x (b : Byte) (k : Cpu) : (addToA b k).x = k.x := rfl
@[simp] theorem addToA_y (b : Byte) (k : Cpu) : (addToA b k).y = k.y := rfl
@[simp] theorem addToA_s (b : Byte) (k : Cpu) : (addToA b k).s = k.s := rfl
@[simp] theorem addToA_pc (b : Byte) (k : Cpu) : (addToA b k).pc = k.pc := rfl
@[simp] theorem addToA_c (b : Byte) (k : Cpu) : (addToA b k).c = (addWithCarry k.a b k.c).2.1 := rfl
@[simp] theorem addToA_z (b : Byte) (k : Cpu) : (addToA b k).z = ((addWithCarry k.a b k.c).1 == 0) := rfl
@[simp] theorem addToA_i (b : Byte) (k : Cpu) : (addToA b k).i = k.i := rfl
@[simp] theorem addToA_d (b : Byte) (k : Cpu) : (addToA b k).d = k.d := rfl
@[simp] theorem addToA_v (b : Byte) (k : Cpu) : (addToA b k).v = (addWithCarry k.a b k.c).2.2 := rfl
@[simp] theorem addToA_n (b : Byte) (k : Cpu) : (addToA b k).n = (addWithCarry k.a b k.c).1.getLsbD 7 := rfl
@[simp] theorem addToA_nmiPrev (b : Byte) (k : Cpu) : (addToA b k).nmiPrev = k.nmiPrev := rfl
@[simp] theorem addToA_nmiPending (b : Byte) (k : Cpu) : (addToA b k).nmiPending = k.nmiPending := rfl
@[simp] theorem addToA_tick (b : Byte) (k : Cpu) : (addToA b k).tick = k.tick := rfl
@[simp] theorem addToA_cycles (b : Byte) (k : Cpu) : (addToA b k).cycles = k.cycles := rfl
@[simp] theorem addToA_jammed (b : Byte) (k : Cpu) : (addToA b k).jammed = k.jammed := rfl
@[simp] theorem addToA_dmaPage (b : Byte) (k : Cpu) : (addToA b k).dmaPage = k.dmaPage := rfl
@[simp] theorem addToA_micro (b : Byte) (k : Cpu) : (addToA b k).micro = k.micro := rfl

end Sys2Proof.Machine
end

