-- ==== Sys2Proof/Laws/Frames.lean ====
section
/-! SUPPORT. What one dot, one tick, one bus access leave unchanged, said once: later proofs cite these and never unfold
the Picture Unit. -/

namespace Sys2Proof.Machine

/-! ### Object memory -/

/-- What a read of object memory gives after a write: the byte, but for the bits of an attribute that do not exist (R113). -/
theorem oamRead_write {oam : Memory} (h : Cells.wf oam) (k : Nat) (v : Byte) (j : Nat) :
    oamRead (Cells.write oam k v) j = if j = k then (if k % 4 = 2 then v &&& 0xE3 else v) else oamRead oam j := by
  unfold oamRead
  rw [Cells.read_write h]
  by_cases e : j = k <;> simp [e]

/-! ### One dot -/

/-- What the dots of the Picture Unit never change: everything but its own pipeline, counters, flags and pixels, and the
mapper's registers. -/
structure DotFrame (s t : State) : Prop where
  cpu      : t.cpu = s.cpu
  ram      : t.ram = s.ram
  openBus  : t.openBus = s.openBus
  pad1     : t.pad1 = s.pad1
  pad2     : t.pad2 = s.pad2
  strobe   : t.strobe = s.strobe
  apu      : t.apu = s.apu
  chip     : t.chip = s.chip
  vram     : t.ppu.vram = s.ppu.vram
  palette  : t.ppu.palette = s.ppu.palette
  oam      : t.ppu.oam = s.ppu.oam
  ctrl     : t.ppu.ctrl = s.ppu.ctrl
  mask     : t.ppu.mask = s.ppu.mask
  latch    : t.ppu.t = s.ppu.t
  fineX    : t.ppu.fineX = s.ppu.fineX
  toggle   : t.ppu.w = s.ppu.w
  readBuf  : t.ppu.readBuf = s.ppu.readBuf
  ioLatch  : t.ppu.ioLatch = s.ppu.ioLatch
  prg      : t.cart.prg = s.cart.prg
  prgLen   : t.cart.prgLen = s.cart.prgLen
  chr      : t.cart.chr = s.cart.chr
  chrLen   : t.cart.chrLen = s.cart.chrLen
  chrIsRam : t.cart.chrIsRam = s.cart.chrIsRam
  prgRam   : t.cart.prgRam = s.cart.prgRam
  ntExtra  : t.cart.ntExtra = s.cart.ntExtra
  header   : t.cart.mirroringHdr = s.cart.mirroringHdr
  mapperId : t.cart.mapperId = s.cart.mapperId
  battery  : t.cart.hasBattery = s.cart.hasBattery
  banks    : t.cart.variant.banks = s.cart.variant.banks

theorem DotFrame.refl (s : State) : DotFrame s s := by constructor <;> rfl

theorem DotFrame.trans {s t u : State} (h : DotFrame s t) (k : DotFrame t u) : DotFrame s u := by
  cases h; cases k; constructor <;> simp_all only

theorem dotFrame_whenDo {b : Bool} {f : State → State} {s t : State} (h : DotFrame s t) (hf : ∀ u, DotFrame u (f u)) :
    DotFrame s (whenDo b f t) := by
  unfold whenDo; split
  · exact h.trans (hf t)
  · exact h

/-- A change of the Picture Unit that keeps its memories and the registers that the processor writes. -/
theorem dotFrame_onPpu {f : Ppu → Ppu} (s : State)
    (h : (f s.ppu).vram = s.ppu.vram ∧ (f s.ppu).palette = s.ppu.palette ∧ (f s.ppu).oam = s.ppu.oam ∧
      (f s.ppu).ctrl = s.ppu.ctrl ∧ (f s.ppu).mask = s.ppu.mask ∧ (f s.ppu).t = s.ppu.t ∧
      (f s.ppu).fineX = s.ppu.fineX ∧ (f s.ppu).w = s.ppu.w ∧ (f s.ppu).readBuf = s.ppu.readBuf ∧
      (f s.ppu).ioLatch = s.ppu.ioLatch) : DotFrame s (onPpu f s) := by
  obtain ⟨h1, h2, h3, h4, h5, h6, h7, h8, h9, h10⟩ := h
  constructor <;> first | rfl | assumption

theorem dotFrame_dotFlags (s : State) : DotFrame s (onPpu dotFlags s) := by
  apply dotFrame_onPpu
  unfold dotFlags
  split
  · simp
  · split <;> simp

theorem dotFrame_fetchStep (d : Nat) (s : State) : DotFrame s (backgroundFetchStep d s) := by
  unfold backgroundFetchStep; split <;> constructor <;> rfl

/-- The scanline hook changes nothing of a cartridge but its variant's registers. -/
theorem onScanline_eq (c : Cartridge) (ended : Nat) (re : Bool) : ∃ v, onScanline c ended re = { c with variant := v } := by
  unfold onScanline
  split
  · split
    · exact ⟨_, rfl⟩
    · exact ⟨c.variant, rfl⟩
  · exact ⟨c.variant, rfl⟩

/-- The scanline counter touches no bank register (R605). -/
theorem ScanlineRegs.banks_clock (r : ScanlineRegs) : (Variant.scanlineIrq r.clock).banks = (Variant.scanlineIrq r).banks := by
  unfold ScanlineRegs.clock Variant.banks
  dsimp only
  split <;> split <;> rfl

theorem onScanline_banks (c : Cartridge) (ended : Nat) (re : Bool) :
    (onScanline c ended re).variant.banks = c.variant.banks := by
  unfold onScanline
  split
  · next r h =>
    rw [h]
    split
    · exact r.banks_clock
    · rw [h]
  · rfl

theorem dotFrame_advance (re : Bool) (s : State) : DotFrame s (advanceCounters re s) := by
  unfold advanceCounters
  split
  · obtain ⟨v, hv⟩ := onScanline_eq s.cart s.ppu.scanline re
    have hb := onScanline_banks s.cart s.ppu.scanline re
    rw [hv] at hb ⊢
    unfold nextLine
    split <;> constructor <;> first | rfl | exact hb
  · constructor <;> rfl

theorem dotFrame_dotFetch (line d : Nat) (s : State) : DotFrame s (dotFetch line d s) := by
  unfold dotFetch
  refine dotFrame_whenDo ?_ fun u => by constructor <;> rfl
  refine dotFrame_whenDo ?_ fun u => by constructor <;> rfl
  refine dotFrame_whenDo ?_ fun u => by constructor <;> rfl
  refine dotFrame_whenDo ?_ fun u => by constructor <;> rfl
  refine dotFrame_whenDo ?_ fun u => by constructor <;> rfl
  refine dotFrame_whenDo ?_ fun u => by constructor <;> rfl
  refine dotFrame_whenDo ?_ fun u => by constructor <;> rfl
  refine dotFrame_whenDo ?_ fun u => by constructor <;> rfl
  refine dotFrame_whenDo ?_ (dotFrame_fetchStep d)
  refine dotFrame_whenDo ?_ fun u => by constructor <;> rfl
  refine dotFrame_whenDo ?_ fun u => by constructor <;> rfl
  exact .refl s

theorem dotFrame_dotWork (line d : Nat) (re : Bool) (s : State) : DotFrame s (dotWork line d re s) := by
  unfold dotWork
  refine dotFrame_whenDo ?_ fun u => by constructor <;> rfl
  exact dotFrame_whenDo (dotFrame_dotFlags s) (dotFrame_dotFetch _ _)

/-- One dot (R452) changes nothing of the frame. -/
theorem dotFrame_ppuDot (s : State) : DotFrame s (ppuDot s) := by
  unfold ppuDot
  exact (dotFrame_dotWork ..).trans (dotFrame_advance ..)

/-! ### The mapper during a dot -/

theorem cart_whenDo {b : Bool} {f : State → State} {t : State} {c : Cartridge} (h : t.cart = c)
    (hf : ∀ u : State, (f u).cart = u.cart) : (whenDo b f t).cart = c := by
  unfold whenDo; split
  · rw [hf, h]
  · exact h

theorem cart_fetchStep (d : Nat) (s : State) : (backgroundFetchStep d s).cart = s.cart := by
  unfold backgroundFetchStep; split <;> rfl

theorem cart_dotFetch (line d : Nat) (s : State) : (dotFetch line d s).cart = s.cart := by
  unfold dotFetch
  refine cart_whenDo ?_ fun _ => rfl
  refine cart_whenDo ?_ fun _ => rfl
  refine cart_whenDo ?_ fun _ => rfl
  refine cart_whenDo ?_ fun _ => rfl
  refine cart_whenDo ?_ fun _ => rfl
  refine cart_whenDo ?_ fun _ => rfl
  refine cart_whenDo ?_ fun _ => rfl
  refine cart_whenDo ?_ fun _ => rfl
  refine cart_whenDo ?_ (cart_fetchStep d)
  refine cart_whenDo ?_ fun _ => rfl
  exact cart_whenDo rfl fun _ => rfl

/-- A dot reaches the mapper's registers only through the scanline hook (R474, R582). -/
theorem cart_dotWork (line d : Nat) (re : Bool) (s : State) : (dotWork line d re s).cart = s.cart := by
  unfold dotWork
  refine cart_whenDo ?_ fun _ => rfl
  exact cart_whenDo rfl (cart_dotFetch line d)

end Sys2Proof.Machine
end

