-- ==== Sys2Proof/Laws/Bus.lean ====
section
/-! SUPPORT. What one bus cycle leaves: the frame of a read, of a write, of the tick that follows, as one structure each
and as one rewriting lemma per field. -/

namespace Sys2Proof.Machine

theorem MemFrame.refl (s : State) : MemFrame s s := by constructor <;> rfl

theorem MemFrame.trans {s t u : State} (h : MemFrame s t) (k : MemFrame t u) : MemFrame s u := by
  cases h; cases k; constructor <;> simp_all only

theorem MemFrame.onCpu {s t : State} (f : Cpu → Cpu) (h : MemFrame s t) : MemFrame s (onCpu f t) := by
  cases h; constructor <;> assumption

theorem DotFrame.mem {s t : State} (h : DotFrame s t) : MemFrame s t := by
  cases h; constructor <;> simp_all only

/-! ### The audio tick changes no register that the processor writes -/

theorem Pulse.settings_envelope (p : Pulse) : p.envelopeClock.settings = p.settings := rfl

theorem Pulse.settings_half (p : Pulse) (first : Bool) : (p.lengthClock.sweepClock first).settings = p.settings := by
  unfold Pulse.sweepClock; dsimp only; split <;> rfl

theorem Pulse.settings_timerTick (p : Pulse) : p.timerTick.settings = p.settings := by
  unfold Pulse.timerTick; split <;> rfl

theorem Triangle.settings_timerTick (t : Triangle) : t.timerTick.settings = t.settings := by
  unfold Triangle.timerTick; split <;> rfl

theorem Noise.settings_timerTick (n : Noise) (tableLen : Nat) : (n.timerTick tableLen).settings = n.settings := by
  unfold Noise.timerTick; split <;> rfl

theorem Dmc.settings_timerTick (d : Dmc) : d.timerTick.settings = d.settings := by
  unfold Dmc.timerTick
  split
  · rfl
  · unfold Dmc.outputClock; dsimp only; split <;> rfl

theorem Dmc.settings_readerStep (d : Dmc) (b : Byte) : (d.readerStep b).settings = d.settings := by
  unfold Dmc.readerStep
  split
  · dsimp only
    split
    · split
      · rfl
      · split <;> rfl
    · rfl
  · rfl

theorem Apu.settings_quarter (u : Apu) : u.quarter.settings = u.settings := rfl

theorem Apu.settings_half (u : Apu) : u.half.settings = u.settings := by
  unfold Apu.half Apu.settings
  dsimp only
  rw [Pulse.settings_half, Pulse.settings_half]
  rfl

theorem Apu.settings_setFsCycle (u : Apu) (n : Nat) : (u.setFsCycle n).settings = u.settings := rfl

theorem Apu.settings_raiseFrameIrq (u : Apu) : u.raiseFrameIrq.settings = u.settings := rfl

theorem Apu.settings_quarterHalf (u : Apu) : u.quarter.half.settings = u.settings := by
  rw [settings_half, settings_quarter]

theorem Apu.settings_schedule4 (u : Apu) : u.schedule4.settings = u.settings := by
  unfold Apu.schedule4
  split
  · rfl
  split
  · exact settings_quarterHalf u
  split
  · rfl
  split
  · rfl
  split
  · exact (settings_raiseFrameIrq _).trans (settings_quarterHalf u)
  split <;> rfl

theorem Apu.settings_schedule5 (u : Apu) : u.schedule5.settings = u.settings := by
  unfold Apu.schedule5
  split
  · rfl
  split
  · exact settings_quarterHalf u
  split
  · rfl
  split
  · exact settings_quarterHalf u
  split <;> rfl

theorem Apu.settings_delayedRestart (u : Apu) : u.delayedRestart.settings = u.settings := by
  unfold Apu.delayedRestart
  split
  · rfl
  · dsimp only
    split
    · split
      · exact settings_quarterHalf _
      · rfl
    · rfl

theorem Apu.settings_sequencerTick (u : Apu) : u.sequencerTick.settings = u.settings := by
  unfold Apu.sequencerTick
  dsimp only
  split
  · rw [settings_delayedRestart, settings_schedule5, settings_setFsCycle]
  · rw [settings_delayedRestart, settings_schedule4, settings_setFsCycle]

/-- A tick leaves every register of the Audio Unit that the processor writes (R520). -/
theorem Apu.settings_tick (u : Apu) (tableLen cycles : Nat) (fetch : Word → Byte) :
    (u.tick tableLen cycles fetch).settings = u.settings := by
  refine Eq.trans ?_ (settings_sequencerTick u)
  unfold Apu.tick Apu.pulseTimers
  dsimp only
  generalize u.sequencerTick = w
  unfold Apu.settings
  split <;>
    simp only [Pulse.settings_timerTick, Triangle.settings_timerTick, Noise.settings_timerTick, Dmc.settings_readerStep,
      Dmc.settings_timerTick]

/-! ### The tick -/

theorem dotFrame_threeDots (s : State) : DotFrame s (ppuDot (ppuDot (ppuDot s))) :=
  ((dotFrame_ppuDot s).trans (dotFrame_ppuDot _)).trans (dotFrame_ppuDot _)

theorem memFrame_countCycle (s : State) : MemFrame s (countCycle s) := by constructor <;> rfl

theorem memFrame_apuTick (s : State) : MemFrame s (apuTick s) := by
  constructor <;> first | rfl | exact Apu.settings_tick ..

theorem memFrame_mapperCycle (s : State) : MemFrame s (mapperCycle s) := by constructor <;> rfl

theorem memFrame_observeNmi (s : State) : MemFrame s (observeNmi s) := by constructor <;> rfl

theorem mapperCycle_eq (s : State) : mapperCycle s = s := rfl

theorem apuTick_cpu (s : State) : (apuTick s).cpu = s.cpu := rfl

theorem apuTick_openBus (s : State) : (apuTick s).openBus = s.openBus := rfl

theorem unitsCycle_cpu (s : State) :
    (unitsCycle s).cpu = { s.cpu with cycles := s.cpu.cycles + 1, tick := s.cpu.tick + 1 } := by
  unfold unitsCycle
  rw [mapperCycle_eq, apuTick_cpu, (dotFrame_threeDots _).cpu]
  rfl

theorem unitsCycle_openBus (s : State) : (unitsCycle s).openBus = s.openBus := by
  unfold unitsCycle
  rw [mapperCycle_eq, apuTick_openBus, (dotFrame_threeDots _).openBus]
  rfl

theorem memFrame_unitsCycle (s : State) : MemFrame s (unitsCycle s) := by
  unfold unitsCycle
  rw [mapperCycle_eq]
  exact ((memFrame_countCycle s).trans (dotFrame_threeDots _).mem).trans (memFrame_apuTick _)

/-- A tick changes no memory (R622). -/
theorem memFrame_tick (s : State) : MemFrame s (tick s) := by
  unfold tick
  exact (memFrame_unitsCycle s).trans (memFrame_observeNmi _)

theorem observeNmi_cpu (s : State) :
    (observeNmi s).cpu =
      { s.cpu with
        nmiPending := s.cpu.nmiPending || (nmiLine s.ppu && !s.cpu.nmiPrev)
        nmiPrev := nmiLine s.ppu } := rfl

theorem observeNmi_ppu (s : State) : (observeNmi s).ppu = s.ppu := rfl

theorem observeNmi_openBus (s : State) : (observeNmi s).openBus = s.openBus := rfl

/-- The processor after a tick: the two counters, and the NMI line observed (R39, R622). -/
theorem tick_cpu (s : State) :
    (tick s).cpu =
      { s.cpu with
        cycles := s.cpu.cycles + 1
        tick := s.cpu.tick + 1
        nmiPending := s.cpu.nmiPending || (nmiLine (tick s).ppu && !s.cpu.nmiPrev)
        nmiPrev := nmiLine (tick s).ppu } := by
  unfold tick
  rw [observeNmi_ppu, observeNmi_cpu, unitsCycle_cpu]

@[simp] theorem tick_cycles (s : State) : (tick s).cpu.cycles = s.cpu.cycles + 1 := by rw [tick_cpu]

@[simp] theorem tick_tick (s : State) : (tick s).cpu.tick = s.cpu.tick + 1 := by rw [tick_cpu]

theorem tick_nmiPrev (s : State) : (tick s).cpu.nmiPrev = nmiLine (tick s).ppu := by rw [tick_cpu]

theorem tick_nmiPending (s : State) :
    (tick s).cpu.nmiPending = (s.cpu.nmiPending || (nmiLine (tick s).ppu && !s.cpu.nmiPrev)) := by rw [tick_cpu]

@[simp] theorem tick_openBus (s : State) : (tick s).openBus = s.openBus := by
  unfold tick
  rw [observeNmi_openBus, unitsCycle_openBus]

@[simp] theorem tick_a (s : State) : (tick s).cpu.a = s.cpu.a := by rw [tick_cpu]

@[simp] theorem tick_x (s : State) : (tick s).cpu.x = s.cpu.x := by rw [tick_cpu]

@[simp] theorem tick_y (s : State) : (tick s).cpu.y = s.cpu.y := by rw [tick_cpu]

@[simp] theorem tick_s (s : State) : (tick s).cpu.s = s.cpu.s := by rw [tick_cpu]

@[simp] theorem tick_pc (s : State) : (tick s).cpu.pc = s.cpu.pc := by rw [tick_cpu]

@[simp] theorem tick_c (s : State) : (tick s).cpu.c = s.cpu.c := by rw [tick_cpu]

@[simp] theorem tick_z (s : State) : (tick s).cpu.z = s.cpu.z := by rw [tick_cpu]

@[simp] theorem tick_i (s : State) : (tick s).cpu.i = s.cpu.i := by rw [tick_cpu]

@[simp] theorem tick_d (s : State) : (tick s).cpu.d = s.cpu.d := by rw [tick_cpu]

@[simp] theorem tick_v (s : State) : (tick s).cpu.v = s.cpu.v := by rw [tick_cpu]

@[simp] theorem tick_n (s : State) : (tick s).cpu.n = s.cpu.n := by rw [tick_cpu]

@[simp] theorem tick_jammed (s : State) : (tick s).cpu.jammed = s.cpu.jammed := by rw [tick_cpu]

@[simp] theorem tick_dmaPage (s : State) : (tick s).cpu.dmaPage = s.cpu.dmaPage := by rw [tick_cpu]

@[simp] theorem tick_micro (s : State) : (tick s).cpu.micro = s.cpu.micro := by rw [tick_cpu]

/-! ### A bus read -/

/-- The register window's reads change no memory and no register that only the processor writes. -/
theorem memFrame_ppuRegRead (s : State) (r : PpuReg) : MemFrame s (ppuRegRead s r).2 := by
  cases r <;> constructor <;> rfl

theorem memFrame_mapperRead (s : State) (a : Word) : MemFrame s (mapperRead s a).2 := by
  unfold mapperRead; split <;> constructor <;> rfl

theorem Pad.buttons_afterRead (p : Pad) (b : Bool) : (p.afterRead b).buttons = p.buttons := by
  cases b <;> rfl

theorem memFrame_ioRead (s : State) (a : Word) : MemFrame s (ioRead s a).2 := by
  unfold ioRead
  split
  · constructor <;> rfl
  · split
    · constructor <;> first | rfl | exact Pad.buttons_afterRead _ _
    · split
      · constructor <;> first | rfl | exact Pad.buttons_afterRead _ _
      · exact memFrame_mapperRead s a

/-- A bus read changes no memory (R93). -/
theorem memFrame_busRead (s : State) (a : Word) : MemFrame s (busRead s a).2 := by
  unfold busRead
  split
  · constructor <;> rfl
  · have h := memFrame_ppuRegRead s (ppuRegOf a)
    cases h
    constructor <;> assumption
  · exact memFrame_ioRead s a
  · exact memFrame_mapperRead s a

theorem ppuRegRead_cpu (s : State) (r : PpuReg) : (ppuRegRead s r).2.cpu = s.cpu := by cases r <;> rfl

theorem mapperRead_cpu (s : State) (a : Word) : (mapperRead s a).2.cpu = s.cpu := by
  unfold mapperRead; split <;> rfl

theorem ioRead_cpu (s : State) (a : Word) : (ioRead s a).2.cpu = s.cpu := by
  unfold ioRead
  split
  · rfl
  · split
    · rfl
    · split
      · rfl
      · exact mapperRead_cpu s a

/-- A bus read changes nothing of the processor. -/
theorem busRead_cpu (s : State) (a : Word) : (busRead s a).2.cpu = s.cpu := by
  unfold busRead
  split
  · rfl
  · exact ppuRegRead_cpu s _
  · exact ioRead_cpu s a
  · exact mapperRead_cpu s a

/-! ### One read cycle -/

theorem rd_snd (s : State) (a : Word) : (rd s a).2 = tick (busRead s a).2 := by unfold rd; rfl

/-- A read cycle changes no memory. -/
theorem memFrame_rd (s : State) (a : Word) : MemFrame s (rd s a).2 := by
  rw [rd_snd]
  exact (memFrame_busRead s a).trans (memFrame_tick _)

theorem memFrame_dummyRead (a : Word) (s : State) : MemFrame s (dummyRead a s) := by
  unfold dummyRead; exact memFrame_rd s a

/-- The byte of a read cycle is the bus's; `Peek` gives it without the cycle (R94). -/
theorem rd_fst (s : State) (a : Word) : (rd s a).1 = peek s a := by unfold rd peek; rfl

@[simp] theorem rd_cycles (s : State) (a : Word) : (rd s a).2.cpu.cycles = s.cpu.cycles + 1 := by
  simp [rd_snd, busRead_cpu]

@[simp] theorem rd_tick (s : State) (a : Word) : (rd s a).2.cpu.tick = s.cpu.tick + 1 := by
  simp [rd_snd, busRead_cpu]

@[simp] theorem rd_a (s : State) (a : Word) : (rd s a).2.cpu.a = s.cpu.a := by simp [rd_snd, busRead_cpu]

@[simp] theorem rd_x (s : State) (a : Word) : (rd s a).2.cpu.x = s.cpu.x := by simp [rd_snd, busRead_cpu]

@[simp] theorem rd_y (s : State) (a : Word) : (rd s a).2.cpu.y = s.cpu.y := by simp [rd_snd, busRead_cpu]

@[simp] theorem rd_s (s : State) (a : Word) : (rd s a).2.cpu.s = s.cpu.s := by simp [rd_snd, busRead_cpu]

@[simp] theorem rd_pc (s : State) (a : Word) : (rd s a).2.cpu.pc = s.cpu.pc := by simp [rd_snd, busRead_cpu]

@[simp] theorem rd_c (s : State) (a : Word) : (rd s a).2.cpu.c = s.cpu.c := by simp [rd_snd, busRead_cpu]

@[simp] theorem rd_z (s : State) (a : Word) : (rd s a).2.cpu.z = s.cpu.z := by simp [rd_snd, busRead_cpu]

@[simp] theorem rd_i (s : State) (a : Word) : (rd s a).2.cpu.i = s.cpu.i := by simp [rd_snd, busRead_cpu]

@[simp] theorem rd_d (s : State) (a : Word) : (rd s a).2.cpu.d = s.cpu.d := by simp [rd_snd, busRead_cpu]

@[simp] theorem rd_v (s : State) (a : Word) : (rd s a).2.cpu.v = s.cpu.v := by simp [rd_snd, busRead_cpu]

@[simp] theorem rd_n (s : State) (a : Word) : (rd s a).2.cpu.n = s.cpu.n := by simp [rd_snd, busRead_cpu]

@[simp] theorem rd_jammed (s : State) (a : Word) : (rd s a).2.cpu.jammed = s.cpu.jammed := by simp [rd_snd, busRead_cpu]

@[simp] theorem rd_dmaPage (s : State) (a : Word) : (rd s a).2.cpu.dmaPage = s.cpu.dmaPage := by simp [rd_snd, busRead_cpu]

@[simp] theorem rd_micro (s : State) (a : Word) : (rd s a).2.cpu.micro = s.cpu.micro := by simp [rd_snd, busRead_cpu]

@[simp] theorem rd_ram (s : State) (a : Word) : (rd s a).2.ram = s.ram := (memFrame_rd s a).ram

@[simp] theorem rd_chip (s : State) (a : Word) : (rd s a).2.chip = s.chip := (memFrame_rd s a).chip

@[simp] theorem rd_vram (s : State) (a : Word) : (rd s a).2.ppu.vram = s.ppu.vram := (memFrame_rd s a).vram

@[simp] theorem rd_palette (s : State) (a : Word) : (rd s a).2.ppu.palette = s.ppu.palette := (memFrame_rd s a).palette

@[simp] theorem rd_oam (s : State) (a : Word) : (rd s a).2.ppu.oam = s.ppu.oam := (memFrame_rd s a).oam

@[simp] theorem rd_prgRam (s : State) (a : Word) : (rd s a).2.cart.prgRam = s.cart.prgRam := (memFrame_rd s a).prgRam

@[simp] theorem rd_chr (s : State) (a : Word) : (rd s a).2.cart.chr = s.cart.chr := (memFrame_rd s a).chr

@[simp] theorem rd_prg (s : State) (a : Word) : (rd s a).2.cart.prg = s.cart.prg := (memFrame_rd s a).prg

@[simp] theorem rd_ntExtra (s : State) (a : Word) : (rd s a).2.cart.ntExtra = s.cart.ntExtra := (memFrame_rd s a).ntExtra

@[simp] theorem tick_ram (s : State) : (tick s).ram = s.ram := (memFrame_tick s).ram

@[simp] theorem tick_chip (s : State) : (tick s).chip = s.chip := (memFrame_tick s).chip

@[simp] theorem tick_vram (s : State) : (tick s).ppu.vram = s.ppu.vram := (memFrame_tick s).vram

@[simp] theorem tick_palette (s : State) : (tick s).ppu.palette = s.ppu.palette := (memFrame_tick s).palette

@[simp] theorem tick_oam (s : State) : (tick s).ppu.oam = s.ppu.oam := (memFrame_tick s).oam

@[simp] theorem tick_prgRam (s : State) : (tick s).cart.prgRam = s.cart.prgRam := (memFrame_tick s).prgRam

@[simp] theorem tick_chr (s : State) : (tick s).cart.chr = s.cart.chr := (memFrame_tick s).chr

@[simp] theorem tick_prg (s : State) : (tick s).cart.prg = s.cart.prg := (memFrame_tick s).prg

@[simp] theorem tick_ntExtra (s : State) : (tick s).cart.ntExtra = s.cart.ntExtra := (memFrame_tick s).ntExtra

@[simp] theorem dummyRead_a (a : Word) (s : State) : (dummyRead a s).cpu.a = s.cpu.a := by simp [dummyRead]

@[simp] theorem dummyRead_x (a : Word) (s : State) : (dummyRead a s).cpu.x = s.cpu.x := by simp [dummyRead]

@[simp] theorem dummyRead_y (a : Word) (s : State) : (dummyRead a s).cpu.y = s.cpu.y := by simp [dummyRead]

@[simp] theorem dummyRead_s (a : Word) (s : State) : (dummyRead a s).cpu.s = s.cpu.s := by simp [dummyRead]

@[simp] theorem dummyRead_pc (a : Word) (s : State) : (dummyRead a s).cpu.pc = s.cpu.pc := by simp [dummyRead]

@[simp] theorem dummyRead_c (a : Word) (s : State) : (dummyRead a s).cpu.c = s.cpu.c := by simp [dummyRead]

@[simp] theorem dummyRead_z (a : Word) (s : State) : (dummyRead a s).cpu.z = s.cpu.z := by simp [dummyRead]

@[simp] theorem dummyRead_i (a : Word) (s : State) : (dummyRead a s).cpu.i = s.cpu.i := by simp [dummyRead]

@[simp] theorem dummyRead_d (a : Word) (s : State) : (dummyRead a s).cpu.d = s.cpu.d := by simp [dummyRead]

@[simp] theorem dummyRead_v (a : Word) (s : State) : (dummyRead a s).cpu.v = s.cpu.v := by simp [dummyRead]

@[simp] theorem dummyRead_n (a : Word) (s : State) : (dummyRead a s).cpu.n = s.cpu.n := by simp [dummyRead]

@[simp] theorem dummyRead_jammed (a : Word) (s : State) : (dummyRead a s).cpu.jammed = s.cpu.jammed := by simp [dummyRead]

@[simp] theorem dummyRead_dmaPage (a : Word) (s : State) : (dummyRead a s).cpu.dmaPage = s.cpu.dmaPage := by simp [dummyRead]

@[simp] theorem dummyRead_micro (a : Word) (s : State) : (dummyRead a s).cpu.micro = s.cpu.micro := by simp [dummyRead]

@[simp] theorem dummyRead_cycles (a : Word) (s : State) : (dummyRead a s).cpu.cycles = s.cpu.cycles + 1 := by simp [dummyRead]

@[simp] theorem dummyRead_tick (a : Word) (s : State) : (dummyRead a s).cpu.tick = s.cpu.tick + 1 := by simp [dummyRead]

@[simp] theorem dummyRead_ram (a : Word) (s : State) : (dummyRead a s).ram = s.ram := by simp [dummyRead]

@[simp] theorem dummyRead_chip (a : Word) (s : State) : (dummyRead a s).chip = s.chip := by simp [dummyRead]

@[simp] theorem dummyRead_vram (a : Word) (s : State) : (dummyRead a s).ppu.vram = s.ppu.vram := by simp [dummyRead]

@[simp] theorem dummyRead_palette (a : Word) (s : State) : (dummyRead a s).ppu.palette = s.ppu.palette := by simp [dummyRead]

@[simp] theorem dummyRead_oam (a : Word) (s : State) : (dummyRead a s).ppu.oam = s.ppu.oam := by simp [dummyRead]

@[simp] theorem dummyRead_prgRam (a : Word) (s : State) : (dummyRead a s).cart.prgRam = s.cart.prgRam := by simp [dummyRead]

@[simp] theorem dummyRead_chr (a : Word) (s : State) : (dummyRead a s).cart.chr = s.cart.chr := by simp [dummyRead]

@[simp] theorem dummyRead_prg (a : Word) (s : State) : (dummyRead a s).cart.prg = s.cart.prg := by simp [dummyRead]

@[simp] theorem dummyRead_ntExtra (a : Word) (s : State) : (dummyRead a s).cart.ntExtra = s.cart.ntExtra := by simp [dummyRead]

@[simp] theorem readPc_a (s : State) : (readPc s).cpu.a = s.cpu.a := by simp [readPc]

@[simp] theorem readPc_x (s : State) : (readPc s).cpu.x = s.cpu.x := by simp [readPc]

@[simp] theorem readPc_y (s : State) : (readPc s).cpu.y = s.cpu.y := by simp [readPc]

@[simp] theorem readPc_s (s : State) : (readPc s).cpu.s = s.cpu.s := by simp [readPc]

@[simp] theorem readPc_pc (s : State) : (readPc s).cpu.pc = s.cpu.pc := by simp [readPc]

@[simp] theorem readPc_c (s : State) : (readPc s).cpu.c = s.cpu.c := by simp [readPc]

@[simp] theorem readPc_z (s : State) : (readPc s).cpu.z = s.cpu.z := by simp [readPc]

@[simp] theorem readPc_i (s : State) : (readPc s).cpu.i = s.cpu.i := by simp [readPc]

@[simp] theorem readPc_d (s : State) : (readPc s).cpu.d = s.cpu.d := by simp [readPc]

@[simp] theorem readPc_v (s : State) : (readPc s).cpu.v = s.cpu.v := by simp [readPc]

@[simp] theorem readPc_n (s : State) : (readPc s).cpu.n = s.cpu.n := by simp [readPc]

@[simp] theorem readPc_jammed (s : State) : (readPc s).cpu.jammed = s.cpu.jammed := by simp [readPc]

@[simp] theorem readPc_dmaPage (s : State) : (readPc s).cpu.dmaPage = s.cpu.dmaPage := by simp [readPc]

@[simp] theorem readPc_micro (s : State) : (readPc s).cpu.micro = s.cpu.micro := by simp [readPc]

@[simp] theorem readPc_cycles (s : State) : (readPc s).cpu.cycles = s.cpu.cycles + 1 := by simp [readPc]

@[simp] theorem readPc_tick (s : State) : (readPc s).cpu.tick = s.cpu.tick + 1 := by simp [readPc]

@[simp] theorem readPc_ram (s : State) : (readPc s).ram = s.ram := by simp [readPc]

@[simp] theorem readPc_chip (s : State) : (readPc s).chip = s.chip := by simp [readPc]

@[simp] theorem readPc_vram (s : State) : (readPc s).ppu.vram = s.ppu.vram := by simp [readPc]

@[simp] theorem readPc_palette (s : State) : (readPc s).ppu.palette = s.ppu.palette := by simp [readPc]

@[simp] theorem readPc_oam (s : State) : (readPc s).ppu.oam = s.ppu.oam := by simp [readPc]

@[simp] theorem readPc_prgRam (s : State) : (readPc s).cart.prgRam = s.cart.prgRam := by simp [readPc]

@[simp] theorem readPc_chr (s : State) : (readPc s).cart.chr = s.cart.chr := by simp [readPc]

@[simp] theorem readPc_prg (s : State) : (readPc s).cart.prg = s.cart.prg := by simp [readPc]

@[simp] theorem readPc_ntExtra (s : State) : (readPc s).cart.ntExtra = s.cart.ntExtra := by simp [readPc]

@[simp] theorem readStack_a (s : State) : (readStack s).cpu.a = s.cpu.a := by simp [readStack]

@[simp] theorem readStack_x (s : State) : (readStack s).cpu.x = s.cpu.x := by simp [readStack]

@[simp] theorem readStack_y (s : State) : (readStack s).cpu.y = s.cpu.y := by simp [readStack]

@[simp] theorem readStack_s (s : State) : (readStack s).cpu.s = s.cpu.s := by simp [readStack]

@[simp] theorem readStack_pc (s : State) : (readStack s).cpu.pc = s.cpu.pc := by simp [readStack]

@[simp] theorem readStack_c (s : State) : (readStack s).cpu.c = s.cpu.c := by simp [readStack]

@[simp] theorem readStack_z (s : State) : (readStack s).cpu.z = s.cpu.z := by simp [readStack]

@[simp] theorem readStack_i (s : State) : (readStack s).cpu.i = s.cpu.i := by simp [readStack]

@[simp] theorem readStack_d (s : State) : (readStack s).cpu.d = s.cpu.d := by simp [readStack]

@[simp] theorem readStack_v (s : State) : (readStack s).cpu.v = s.cpu.v := by simp [readStack]

@[simp] theorem readStack_n (s : State) : (readStack s).cpu.n = s.cpu.n := by simp [readStack]

@[simp] theorem readStack_jammed (s : State) : (readStack s).cpu.jammed = s.cpu.jammed := by simp [readStack]

@[simp] theorem readStack_dmaPage (s : State) : (readStack s).cpu.dmaPage = s.cpu.dmaPage := by simp [readStack]

@[simp] theorem readStack_micro (s : State) : (readStack s).cpu.micro = s.cpu.micro := by simp [readStack]

@[simp] theorem readStack_cycles (s : State) : (readStack s).cpu.cycles = s.cpu.cycles + 1 := by simp [readStack]

@[simp] theorem readStack_tick (s : State) : (readStack s).cpu.tick = s.cpu.tick + 1 := by simp [readStack]

@[simp] theorem readStack_ram (s : State) : (readStack s).ram = s.ram := by simp [readStack]

@[simp] theorem readStack_chip (s : State) : (readStack s).chip = s.chip := by simp [readStack]

@[simp] theorem readStack_vram (s : State) : (readStack s).ppu.vram = s.ppu.vram := by simp [readStack]

@[simp] theorem readStack_palette (s : State) : (readStack s).ppu.palette = s.ppu.palette := by simp [readStack]

@[simp] theorem readStack_oam (s : State) : (readStack s).ppu.oam = s.ppu.oam := by simp [readStack]

@[simp] theorem readStack_prgRam (s : State) : (readStack s).cart.prgRam = s.cart.prgRam := by simp [readStack]

@[simp] theorem readStack_chr (s : State) : (readStack s).cart.chr = s.cart.chr := by simp [readStack]

@[simp] theorem readStack_prg (s : State) : (readStack s).cart.prg = s.cart.prg := by simp [readStack]

@[simp] theorem readStack_ntExtra (s : State) : (readStack s).cart.ntExtra = s.cart.ntExtra := by simp [readStack]

/-! ### A bus write -/

theorem ntWrite_cpu (s : State) (off : Nat) (v : Byte) : (ntWrite s off v).cpu = s.cpu := by
  unfold ntWrite; dsimp only; split <;> rfl

theorem ntWrite_ram (s : State) (off : Nat) (v : Byte) : (ntWrite s off v).ram = s.ram := by
  unfold ntWrite; dsimp only; split <;> rfl

theorem ntWrite_chip (s : State) (off : Nat) (v : Byte) : (ntWrite s off v).chip = s.chip := by
  unfold ntWrite; dsimp only; split <;> rfl

theorem ppuWrite_cpu (s : State) (a : BitVec 14) (v : Byte) : (ppuWrite s a v).cpu = s.cpu := by
  unfold ppuWrite; dsimp only
  split
  · rfl
  · split
    · exact ntWrite_cpu ..
    · rfl

theorem ppuWrite_ram (s : State) (a : BitVec 14) (v : Byte) : (ppuWrite s a v).ram = s.ram := by
  unfold ppuWrite; dsimp only
  split
  · rfl
  · split
    · exact ntWrite_ram ..
    · rfl

theorem ppuWrite_chip (s : State) (a : BitVec 14) (v : Byte) : (ppuWrite s a v).chip = s.chip := by
  unfold ppuWrite; dsimp only
  split
  · rfl
  · split
    · exact ntWrite_chip ..
    · rfl

theorem ppuRegWrite_cpu (s : State) (r : PpuReg) (v : Byte) : (ppuRegWrite s r v).cpu = s.cpu := by
  cases r <;> first | rfl | exact ppuWrite_cpu _ _ _

theorem ppuRegWrite_ram (s : State) (r : PpuReg) (v : Byte) : (ppuRegWrite s r v).ram = s.ram := by
  cases r <;> first | rfl | exact ppuWrite_ram _ _ _

theorem ppuRegWrite_chip (s : State) (r : PpuReg) (v : Byte) : (ppuRegWrite s r v).chip = s.chip := by
  cases r <;> first | rfl | exact ppuWrite_chip _ _ _

theorem strobeWrite_cpu (s : State) (v : Byte) : (strobeWrite s v).cpu = s.cpu := rfl

/-- The processor after a write of the I/O window. -/
theorem ioWrite_cpu (s : State) (a : Word) (v : Byte) :
    (ioWrite s a v).cpu = if a = 0x4014 then { s.cpu with dmaPage := some v } else s.cpu := by
  unfold ioWrite
  split
  · next h =>
    have : a ≠ 0x4014 := by rintro rfl; simp at h
    rw [if_neg this]
  · split
    · rfl
    · split
      · rfl
      · split
        · exact strobeWrite_cpu s v
        · rfl

theorem ioWrite_ram (s : State) (a : Word) (v : Byte) : (ioWrite s a v).ram = s.ram := by
  unfold ioWrite
  split
  · rfl
  · split
    · rfl
    · split
      · rfl
      · split <;> rfl

theorem ioWrite_chip (s : State) (a : Word) (v : Byte) : (ioWrite s a v).chip = s.chip := by
  unfold ioWrite
  split
  · rfl
  · split
    · rfl
    · split
      · rfl
      · split <;> rfl

/-- The regions by their bounds (R84, R85, R95). -/
theorem regionOf_eq_io_iff (a : Word) : regionOf a = .io ↔ 0x4000 ≤ a.toNat ∧ a.toNat ≤ 0x4017 := by
  unfold regionOf
  split
  · simp; omega
  · split
    · simp; omega
    · split
      · simp; omega
      · simp; omega

/-- The processor after a bus write: unchanged but for the DMA request of 0x4014 (R63, R552). -/
theorem busWrite_cpu (s : State) (a : Word) (v : Byte) :
    (busWrite s a v).cpu = if a = 0x4014 then { s.cpu with dmaPage := some v } else s.cpu := by
  have h0 : regionOf a ≠ .io → a ≠ 0x4014 := by
    rintro h rfl
    exact h ((regionOf_eq_io_iff _).2 (by decide))
  unfold busWrite
  cases h : regionOf a with
  | ram => rw [if_neg (h0 (by simp [h]))]
  | picture => rw [if_neg (h0 (by simp [h]))]; exact ppuRegWrite_cpu _ _ _
  | io => exact ioWrite_cpu _ _ _
  | cartridge => rw [if_neg (h0 (by simp [h]))]

theorem busWrite_chip (s : State) (a : Word) (v : Byte) : (busWrite s a v).chip = s.chip := by
  unfold busWrite
  cases regionOf a with
  | ram => rfl
  | picture => exact ppuRegWrite_chip _ _ _
  | io => exact ioWrite_chip _ _ _
  | cartridge => rfl

/-- Internal RAM after a bus write: the cell of a RAM address, nothing else (R86). -/
theorem busWrite_ram (s : State) (a : Word) (v : Byte) :
    (busWrite s a v).ram = if regionOf a = .ram then Cells.write s.ram (ramIndex a) v else s.ram := by
  unfold busWrite
  cases h : regionOf a with
  | ram => rfl
  | picture => exact ppuRegWrite_ram _ _ _
  | io => exact ioWrite_ram _ _ _
  | cartridge => rfl

/-- A write to a RAM address changes nothing but the cell and the open bus (R85, R86). -/
theorem busWrite_of_ram (s : State) {a : Word} (v : Byte) (h : regionOf a = .ram) :
    busWrite s a v = { s with openBus := v, ram := Cells.write s.ram (ramIndex a) v } := by
  simp [busWrite, h]

/-! ### One write cycle -/

@[simp] theorem wr_cycles (s : State) (a : Word) (v : Byte) : (wr s a v).cpu.cycles = s.cpu.cycles + 1 := by
  simp only [wr, tick_cycles, busWrite_cpu]; split <;> rfl

@[simp] theorem wr_tick (s : State) (a : Word) (v : Byte) : (wr s a v).cpu.tick = s.cpu.tick + 1 := by
  simp only [wr, tick_tick, busWrite_cpu]; split <;> rfl

@[simp] theorem wr_a (s : State) (a : Word) (v : Byte) : (wr s a v).cpu.a = s.cpu.a := by
  simp only [wr, tick_a, busWrite_cpu]; split <;> rfl

@[simp] theorem wr_x (s : State) (a : Word) (v : Byte) : (wr s a v).cpu.x = s.cpu.x := by
  simp only [wr, tick_x, busWrite_cpu]; split <;> rfl

@[simp] theorem wr_y (s : State) (a : Word) (v : Byte) : (wr s a v).cpu.y = s.cpu.y := by
  simp only [wr, tick_y, busWrite_cpu]; split <;> rfl

@[simp] theorem wr_s (s : State) (a : Word) (v : Byte) : (wr s a v).cpu.s = s.cpu.s := by
  simp only [wr, tick_s, busWrite_cpu]; split <;> rfl

@[simp] theorem wr_pc (s : State) (a : Word) (v : Byte) : (wr s a v).cpu.pc = s.cpu.pc := by
  simp only [wr, tick_pc, busWrite_cpu]; split <;> rfl

@[simp] theorem wr_c (s : State) (a : Word) (v : Byte) : (wr s a v).cpu.c = s.cpu.c := by
  simp only [wr, tick_c, busWrite_cpu]; split <;> rfl

@[simp] theorem wr_z (s : State) (a : Word) (v : Byte) : (wr s a v).cpu.z = s.cpu.z := by
  simp only [wr, tick_z, busWrite_cpu]; split <;> rfl

@[simp] theorem wr_i (s : State) (a : Word) (v : Byte) : (wr s a v).cpu.i = s.cpu.i := by
  simp only [wr, tick_i, busWrite_cpu]; split <;> rfl

@[simp] theorem wr_d (s : State) (a : Word) (v : Byte) : (wr s a v).cpu.d = s.cpu.d := by
  simp only [wr, tick_d, busWrite_cpu]; split <;> rfl

@[simp] theorem wr_v (s : State) (a : Word) (v : Byte) : (wr s a v).cpu.v = s.cpu.v := by
  simp only [wr, tick_v, busWrite_cpu]; split <;> rfl

@[simp] theorem wr_n (s : State) (a : Word) (v : Byte) : (wr s a v).cpu.n = s.cpu.n := by
  simp only [wr, tick_n, busWrite_cpu]; split <;> rfl

@[simp] theorem wr_jammed (s : State) (a : Word) (v : Byte) : (wr s a v).cpu.jammed = s.cpu.jammed := by
  simp only [wr, tick_jammed, busWrite_cpu]; split <;> rfl

@[simp] theorem wr_micro (s : State) (a : Word) (v : Byte) : (wr s a v).cpu.micro = s.cpu.micro := by
  simp only [wr, tick_micro, busWrite_cpu]; split <;> rfl

theorem wr_dmaPage (s : State) (a : Word) (v : Byte) :
    (wr s a v).cpu.dmaPage = if a = 0x4014 then some v else s.cpu.dmaPage := by
  simp only [wr, tick_dmaPage, busWrite_cpu]; split <;> rfl

theorem wr_ram (s : State) (a : Word) (v : Byte) :
    (wr s a v).ram = if regionOf a = .ram then Cells.write s.ram (ramIndex a) v else s.ram := by
  simp only [wr, tick_ram, busWrite_ram]

@[simp] theorem wr_chip (s : State) (a : Word) (v : Byte) : (wr s a v).chip = s.chip := by
  simp only [wr, tick_chip, busWrite_chip]

theorem wr_vram_of_ram (s : State) {a : Word} (v : Byte) (h : regionOf a = .ram) : (wr s a v).ppu.vram = s.ppu.vram := by
  simp only [wr, tick_vram, busWrite_of_ram s v h]

theorem wr_palette_of_ram (s : State) {a : Word} (v : Byte) (h : regionOf a = .ram) : (wr s a v).ppu.palette = s.ppu.palette := by
  simp only [wr, tick_palette, busWrite_of_ram s v h]

theorem wr_oam_of_ram (s : State) {a : Word} (v : Byte) (h : regionOf a = .ram) : (wr s a v).ppu.oam = s.ppu.oam := by
  simp only [wr, tick_oam, busWrite_of_ram s v h]

theorem wr_prgRam_of_ram (s : State) {a : Word} (v : Byte) (h : regionOf a = .ram) : (wr s a v).cart.prgRam = s.cart.prgRam := by
  simp only [wr, tick_prgRam, busWrite_of_ram s v h]

theorem wr_chr_of_ram (s : State) {a : Word} (v : Byte) (h : regionOf a = .ram) : (wr s a v).cart.chr = s.cart.chr := by
  simp only [wr, tick_chr, busWrite_of_ram s v h]

theorem wr_prg_of_ram (s : State) {a : Word} (v : Byte) (h : regionOf a = .ram) : (wr s a v).cart.prg = s.cart.prg := by
  simp only [wr, tick_prg, busWrite_of_ram s v h]

theorem wr_ntExtra_of_ram (s : State) {a : Word} (v : Byte) (h : regionOf a = .ram) : (wr s a v).cart.ntExtra = s.cart.ntExtra := by
  simp only [wr, tick_ntExtra, busWrite_of_ram s v h]

/-! ### Reading RAM -/

/-- A read of a RAM address returns the cell (R86). -/
theorem peek_of_ram (s : State) {a : Word} (h : regionOf a = .ram) : peek s a = Cells.read s.ram (ramIndex a) := by
  simp [peek, busRead, h, drive]

theorem rd_fst_of_ram (s : State) {a : Word} (h : regionOf a = .ram) : (rd s a).1 = Cells.read s.ram (ramIndex a) := by
  rw [rd_fst, peek_of_ram s h]

theorem wordOf_toNat (hi lo : Byte) : (wordOf hi lo).toNat = 0x100 * hi.toNat + lo.toNat := by
  have h : (wordOf hi lo).toNat = hi.toNat <<< 8 ||| lo.toNat := BitVec.toNat_append hi lo
  rw [h, ← Nat.shiftLeft_add_eq_or_of_lt lo.isLt, Nat.shiftLeft_eq]
  omega

theorem stackAddr_toNat (p : Byte) : (stackAddr p).toNat = 0x100 + p.toNat := by
  unfold stackAddr
  rw [wordOf_toNat]
  rfl

/-- The stack lies in RAM (R33, R95). -/
theorem regionOf_stackAddr (p : Byte) : regionOf (stackAddr p) = .ram := by
  have h := stackAddr_toNat p
  have := p.isLt
  unfold regionOf
  rw [if_pos (by omega)]

theorem zeroPage_toNat (z : Byte) : (zeroPage z).toNat = z.toNat := by
  unfold zeroPage
  rw [wordOf_toNat]
  simp

/-- Zero page lies in RAM (R95). -/
theorem regionOf_zeroPage (z : Byte) : regionOf (zeroPage z) = .ram := by
  have h := zeroPage_toNat z
  have := z.isLt
  unfold regionOf
  rw [if_pos (by omega)]

theorem regionOf_eq_ram_iff (a : Word) : regionOf a = .ram ↔ a.toNat ≤ 0x1FFF := by
  unfold regionOf
  split
  · simp [*]
  · split
    · simp [*]
    · split <;> simp [*]

end Sys2Proof.Machine
end

