-- ==== Sys2Proof/Laws/Operands.lean ====
section
/-! SUPPORT. What the shared operations of Ops.lean and Operands.lean do, said once each: a sequence of reads leaves every
register and memory (ReadOnly), with the cycles of the table of R187. -/

namespace Sys2Proof.Machine

/-! ### Spent cycles -/

theorem Cpu.spent_spent (c : Cpu) (j k : Nat) (t u : State) : (c.spent j t).spent k u = c.spent (j + k) u := by
  simp [Cpu.spent, Nat.add_assoc]

theorem ReadOnly.refl (s : State) : ReadOnly s s 0 := ⟨rfl, .refl s⟩

theorem ReadOnly.trans {s t u : State} {j k : Nat} (h : ReadOnly s t j) (h' : ReadOnly t u k) : ReadOnly s u (j + k) :=
  ⟨by rw [h'.cpu, h.cpu, Cpu.spent_spent], h.mem.trans h'.mem⟩

theorem rd_cpu (s : State) (a : Word) : (rd s a).2.cpu = s.cpu.spent 1 (rd s a).2 := by
  have h := tick_cpu (busRead s a).2
  rw [busRead_cpu, ← rd_snd] at h
  rw [h]
  simp [Cpu.spent, h]

theorem readOnly_rd (s : State) (a : Word) : ReadOnly s (rd s a).2 1 := ⟨rd_cpu s a, memFrame_rd s a⟩

theorem readOnly_dummyRead (a : Word) (s : State) : ReadOnly s (dummyRead a s) 1 := by
  unfold dummyRead; exact readOnly_rd s a

theorem readOnly_readPc (s : State) : ReadOnly s (readPc s) 1 := by
  unfold readPc; exact readOnly_dummyRead _ s

theorem readOnly_readStack (s : State) : ReadOnly s (readStack s) 1 := by
  unfold readStack; exact readOnly_dummyRead _ s

/-- What registers a read-only sequence leaves, one rewriting rule per use. -/
theorem ReadOnly.reg {s t : State} {k : Nat} (h : ReadOnly s t k) :
    t.cpu.a = s.cpu.a ∧ t.cpu.x = s.cpu.x ∧ t.cpu.y = s.cpu.y ∧ t.cpu.s = s.cpu.s ∧ t.cpu.pc = s.cpu.pc := by
  rw [h.cpu]; exact ⟨rfl, rfl, rfl, rfl, rfl⟩

/-! ### Operand reads -/

theorem readPointer_snd (p : Byte) (s : State) :
    (readPointer p s).2 = (rd (rd s (zeroPage p)).2 (zeroPage (p + 1))).2 := by unfold readPointer; rfl

theorem readOnly_readPointer (p : Byte) (s : State) : ReadOnly s (readPointer p s).2 2 := by
  rw [readPointer_snd]
  exact (readOnly_rd s _).trans (readOnly_rd _ _)

/-- The pointer a zero-page cell holds: both bytes from page 0, the second address wrapping (R180, R181). -/
theorem readPointer_fst (p : Byte) (s : State) :
    (readPointer p s).1 = wordOf (Cells.read s.ram (p + 1).toNat) (Cells.read s.ram p.toNat) := by
  have e : (readPointer p s).1 = wordOf (rd (rd s (zeroPage p)).2 (zeroPage (p + 1))).1 (rd s (zeroPage p)).1 := by
    unfold readPointer; rfl
  have hz : ∀ z : Byte, ramIndex (zeroPage z) = z.toNat := by
    intro z
    have := z.isLt
    rw [ramIndex, zeroPage_toNat, Nat.mod_eq_of_lt (by omega)]
  rw [e, rd_fst_of_ram _ (regionOf_zeroPage _), rd_fst_of_ram _ (regionOf_zeroPage _), rd_ram, hz, hz]

/-- The cycles of `baseOf` (R172 to R181). -/
def Place.baseCycles : Place → Nat
  | .zp _ => 0
  | .zpx _ => 1
  | .zpy _ => 1
  | .abs _ => 0
  | .abx _ => 0
  | .aby _ => 0
  | .izx _ => 3
  | .izy _ => 2

theorem readOnly_baseOf (p : Place) (s : State) : ReadOnly s (baseOf p s).2 p.baseCycles := by
  cases p with
  | zp z => exact .refl s
  | zpx z => exact readOnly_dummyRead _ s
  | zpy z => exact readOnly_dummyRead _ s
  | abs w => exact .refl s
  | abx w => exact .refl s
  | aby w => exact .refl s
  | izx z => exact (readOnly_dummyRead _ s).trans (readOnly_readPointer _ _)
  | izy z => exact readOnly_readPointer _ s

theorem readOnly_indexCycle (k : Kind) (base : Word) (index : Byte) (s : State) :
    ReadOnly s (indexCycle k base index s) (if k = .read ∧ crossesPage base index = false then 0 else 1) := by
  unfold indexCycle
  split
  · exact .refl s
  · exact readOnly_dummyRead _ s

/-- The cycles of the access itself (R183 to R185). -/
def Kind.accessCycles : Kind → Nat
  | .read => 1
  | .write => 1
  | .modify => 3

/-- The address cycles are reads; together with the access they make the table of R187. -/
theorem readOnly_addressCycles (k : Kind) (p : Place) (s : State) :
    ReadOnly s (addressCycles k p s).2 (remainingCycles k p s - k.accessCycles) := by
  have hb := readOnly_baseOf p s
  unfold addressCycles
  cases hi : indexOf p s.cpu with
  | none =>
    have e : remainingCycles k p s - k.accessCycles = p.baseCycles := by
      cases p <;> cases k <;> first | rfl | simp [indexOf] at hi
    rw [e]
    exact hb
  | some index =>
    have e : remainingCycles k p s - k.accessCycles =
        p.baseCycles + (if k = .read ∧ crossesPage (baseOf p s).1 index = false then 0 else 1) := by
      have hc : crossed p s = crossesPage (baseOf p s).1 index := by simp [crossed, hi]
      unfold remainingCycles
      rw [hc]
      cases p <;> first | (simp [indexOf] at hi; done) | skip
      all_goals cases k <;> simp [totalCycles, Place.length, Kind.accessCycles, Place.baseCycles]
      all_goals cases crossesPage _ index <;> simp
    rw [e]
    exact hb.trans (readOnly_indexCycle ..)

/-- Reading an operand changes no register and no memory, and takes the cycles of R187. -/
theorem readOnly_readOperand (o : Source) (s : State) : ReadOnly s (readOperand o s).2 (o.cycles s) := by
  cases o with
  | imm b => exact .refl s
  | mem p =>
    have h := (readOnly_addressCycles .read p s).trans (readOnly_rd (addressCycles .read p s).2 (addressCycles .read p s).1)
    have e : remainingCycles .read p s - Kind.accessCycles .read + 1 = (Source.mem p).cycles s := by
      have : 1 ≤ remainingCycles .read p s := by
        cases p <;> simp [remainingCycles, totalCycles, Place.length] <;> omega
      simp only [Kind.accessCycles, Source.cycles]
      omega
    rw [e] at h
    exact h

end Sys2Proof.Machine
end

