-- ==== Sys2Proof/Laws/Stack.lean ====
section
/-! SUPPORT. What one write cycle does and leaves, and the stack operations of Ops.lean: pushes, pulls, vector reads. -/

namespace Sys2Proof.Machine

/-! ### One write cycle -/

/-- The processor after a tick, its registers untouched. -/
theorem tick_spent (u : State) : (tick u).cpu = u.cpu.spent 1 (tick u) := by
  have h := tick_cpu u
  generalize tick u = t at *
  rw [h]
  unfold Cpu.spent
  rw [h]

/-- The processor after a write cycle: the two counters, the NMI latches, and the DMA request of 0x4014. -/
theorem wr_cpu (s : State) (a : Word) (v : Byte) : (wr s a v).cpu = (dmaAfter a v s.cpu).spent 1 (wr s a v) := by
  have h := tick_spent (busWrite s a v)
  rw [busWrite_cpu] at h
  exact h

/-- After the write itself, the cycle changes no memory and no written register. -/
theorem memFrame_wr (s : State) (a : Word) (v : Byte) : MemFrame (busWrite s a v) (wr s a v) := by
  unfold wr; exact memFrame_tick _

theorem dmaAfter_of_ne {a : Word} (v : Byte) (c : Cpu) (h : a ≠ 0x4014) : dmaAfter a v c = c := if_neg h

theorem stackAddr_ne (p : Byte) (n : Word) (h : 0x200 ≤ n.toNat) : stackAddr p ≠ n := by
  intro e
  have h1 := stackAddr_toNat p
  have h2 := p.isLt
  rw [e] at h1
  omega

theorem wr_stack_cpu (s : State) (p v : Byte) :
    (wr s (stackAddr p) v).cpu = s.cpu.spent 1 (wr s (stackAddr p) v) := by
  rw [wr_cpu, dmaAfter_of_ne _ _ (stackAddr_ne p 0x4014 (by decide))]

/-! ### Stack pages -/

theorem ramIndex_stackAddr (p : Byte) : ramIndex (stackAddr p) = stackCell p := by
  have := p.isLt
  unfold ramIndex stackCell
  rw [stackAddr_toNat]
  omega

theorem stackCell_inj {p q : Byte} : stackCell p = stackCell q ↔ p = q := by
  unfold stackCell
  constructor
  · intro h; apply BitVec.eq_of_toNat_eq; omega
  · rintro rfl; rfl

theorem StackOnly.of_mem {s t : State} (h : MemFrame s t) : StackOnly s t := by
  cases h; constructor <;> first | rfl | assumption

theorem StackOnly.onCpu {s t : State} (f : Cpu → Cpu) (h : StackOnly s t) : StackOnly s (onCpu f t) := MemFrame.onCpu f h

theorem StackOnly.trans {s t u : State} (h : StackOnly s t) (k : StackOnly t u) : StackOnly s u := by
  cases h; cases k; constructor <;> simp_all only

theorem stackOnly_wr (s : State) (p v : Byte) : StackOnly s (wr s (stackAddr p) v) := by
  have h := memFrame_wr s (stackAddr p) v
  rw [busWrite_of_ram s v (regionOf_stackAddr p)] at h
  generalize wr s (stackAddr p) v = t at h ⊢
  cases h
  constructor <;> first | assumption | rfl

/-! ### Pushes and pulls -/

theorem spent_setS {c : Cpu} {t : State} {k : Nat} (h : t.cpu = c.spent k t) (v : Byte) :
    (onCpu (setS v) t).cpu = ({ c with s := v }).spent k (onCpu (setS v) t) := by
  rw [onCpu_cpu, setS, h]; rfl

theorem spent_setPc {c : Cpu} {t : State} {k : Nat} (h : t.cpu = c.spent k t) (w : Word) :
    (onCpu (setPc w) t).cpu = ({ c with pc := w }).spent k (onCpu (setPc w) t) := by
  rw [onCpu_cpu, setPc, h]; rfl

theorem push_eq (v : Byte) (s : State) : push v s = onCpu (setS (s.cpu.s - 1)) (wr s (stackAddr s.cpu.s) v) := by
  unfold push
  dsimp only
  rw [wr_s]

/-- One push: the byte at the old stack pointer, the pointer one lower, one cycle (R10, R33). -/
theorem push_cpu (v : Byte) (s : State) :
    (push v s).cpu = ({ s.cpu with s := s.cpu.s - 1 }).spent 1 (push v s) := by
  rw [push_eq]
  exact spent_setS (wr_stack_cpu s s.cpu.s v) _

theorem push_ram (v : Byte) (s : State) : (push v s).ram = Cells.write s.ram (stackCell s.cpu.s) v := by
  rw [push_eq, onCpu_ram, wr_ram, if_pos (regionOf_stackAddr _), ramIndex_stackAddr]

theorem stackOnly_push (v : Byte) (s : State) : StackOnly s (push v s) := by
  rw [push_eq]
  exact (stackOnly_wr s s.cpu.s v).onCpu _

/-- One pull: the byte one above the stack pointer, the pointer there, one cycle. -/
theorem pull_fst (s : State) : (pull s).1 = Cells.read s.ram (stackCell (s.cpu.s + 1)) := by
  unfold pull
  dsimp only
  rw [rd_fst_of_ram _ (regionOf_stackAddr _), ramIndex_stackAddr]
  rfl

theorem pull_cpu (s : State) : (pull s).2.cpu = ({ s.cpu with s := s.cpu.s + 1 }).spent 1 (pull s).2 := by
  unfold pull
  exact rd_cpu _ _

theorem memFrame_pull (s : State) : MemFrame s (pull s).2 := by
  unfold pull
  exact ((MemFrame.refl s).onCpu _).trans (memFrame_rd _ _)

/-! ### The cartridge's program side depends on nothing that a cycle changes -/

theorem cpuRead_congr {c c' : Cartridge} (hb : c'.variant.banks = c.variant.banks) (hp : c'.prg = c.prg)
    (hl : c'.prgLen = c.prgLen) (hr : c'.prgRam = c.prgRam) (a : Word) : cpuRead c' a = cpuRead c a := by
  unfold cpuRead
  rw [hp, hl, hr]
  cases h : c.variant with
  | empty => cases h' : c'.variant <;> simp_all [Variant.banks]
  | fixed => cases h' : c'.variant <;> simp_all [Variant.banks]
  | simpleBanked b => cases h' : c'.variant <;> simp_all [Variant.banks]
  | scanlineIrq r =>
    cases h' : c'.variant with
    | scanlineIrq r' =>
      rw [h, h'] at hb
      simp only [Variant.banks, Variant.scanlineIrq.injEq, ScanlineRegs.mk.injEq] at hb
      obtain ⟨h1, h2, h3, h4, h5, h6, h7, h8, h9, h10, h11, h12, h13, h14, h15, h16, h17⟩ := hb
      simp only [ScanlineRegs.prgBank, h1, h8, h9, h11]
    | _ => simp_all [Variant.banks]

theorem MemFrame.cpuRead {s t : State} (h : MemFrame s t) (a : Word) : cpuRead t.cart a = cpuRead s.cart a :=
  cpuRead_congr h.banks h.prg h.prgLen h.prgRam a

theorem StackOnly.cpuRead {s t : State} (h : StackOnly s t) (a : Word) :
    Machine.cpuRead t.cart a = Machine.cpuRead s.cart a := MemFrame.cpuRead h a

/-! ### The open bus -/

/-- A claimed read drives the bus; a read of the upper half gives the cartridge's byte, or the open bus (R84, R92). -/
theorem busRead_high (s : State) (a : Word) (h : 0x8000 ≤ a.toNat) :
    busRead s a = (match cpuRead s.cart a with
      | some b => (b, { s with openBus := b })
      | none => (s.openBus, s)) := by
  have : regionOf a = .cartridge := by
    unfold regionOf
    rw [if_neg (by omega), if_neg (by omega), if_neg (by omega)]
  unfold busRead
  rw [this]
  unfold mapperRead
  cases cpuRead s.cart a <;> rfl

theorem rd_openBus (s : State) (a : Word) : (rd s a).2.openBus = (busRead s a).2.openBus := by
  rw [rd_snd, tick_openBus]

theorem rd_openBus_of_ram (s : State) {a : Word} (h : regionOf a = .ram) :
    (rd s a).2.openBus = Cells.read s.ram (ramIndex a) := by
  rw [rd_openBus]; simp [busRead, h, drive]

theorem wr_openBus (s : State) (a : Word) (v : Byte) (h : regionOf a = .ram) : (wr s a v).openBus = v := by
  unfold wr
  rw [tick_openBus, busWrite_of_ram s v h]

theorem push_openBus (v : Byte) (s : State) : (push v s).openBus = v := by
  rw [push_eq, onCpu_openBus]
  exact wr_openBus _ _ _ (regionOf_stackAddr _)

/-! ### Vector reads -/

/-- Loading PC from a vector in the upper half: both bytes through the cartridge, or the open bus (R401, R84). -/
theorem loadVector_cpu (vector : Word) (s : State) (h : 0x8000 ≤ vector.toNat) (h' : vector.toNat < 0xFFFF) :
    (loadVector vector s).cpu =
      ({ s.cpu with pc := vectorWord s vector s.openBus }).spent 2 (loadVector vector s) := by
  have h1 : 0x8000 ≤ (vector + 1).toNat := by rw [BitVec.toNat_add]; simp; omega
  have f := memFrame_rd s vector
  have hlo : (rd s vector).1 = (cpuRead s.cart vector).getD s.openBus := by
    rw [rd_fst, peek, busRead_high s vector h]; cases cpuRead s.cart vector <;> rfl
  have hhi : (rd (rd s vector).2 (vector + 1)).1 = (cpuRead s.cart (vector + 1)).getD s.openBus := by
    have hb := congrArg Prod.fst (busRead_high (rd s vector).2 (vector + 1) h1)
    rw [rd_fst, peek, hb, f.cpuRead]
    cases hc : cpuRead s.cart (vector + 1) with
    | some b => simp only [Option.getD_some]
    | none =>
      simp only [Option.getD_none]
      have : cpuRead s.cart vector = none := by
        unfold cpuRead at hc ⊢
        cases hv : s.cart.variant with
        | empty => rfl
        | fixed =>
          simp only [hv] at hc
          split at hc
          · omega
          · split at hc <;> simp at hc
        | simpleBanked b =>
          simp only [hv] at hc
          split at hc
          · omega
          · split at hc
            · simp at hc
            · split at hc <;> simp at hc
        | scanlineIrq r =>
          simp only [hv] at hc
          split at hc
          · omega
          · split at hc
            · omega
            · simp at hc
      rw [rd_openBus, busRead_high s vector h, this]
  have hc := ((readOnly_rd s vector).trans (readOnly_rd (rd s vector).2 (vector + 1))).cpu
  have e : loadVector vector s = onCpu (setPc (vectorWord s vector s.openBus)) (rd (rd s vector).2 (vector + 1)).2 := by
    unfold loadVector vectorWord
    dsimp only
    rw [hlo, hhi]
  rw [e]
  exact spent_setPc hc _

theorem memFrame_loadVector (vector : Word) (s : State) : MemFrame s (loadVector vector s) := by
  unfold loadVector
  exact ((memFrame_rd _ _).trans (memFrame_rd _ _)).onCpu _

/-! ### Three bytes stacked -/

theorem pushWord_eq (w : Word) (s : State) : pushWord w s = push (loByte w) (push (hiByte w) s) := rfl

end Sys2Proof.Machine
end

