-- ==== Sys2Proof/Laws/Reads.lean ====
section
/-! SUPPORT. Sequences of read cycles as lists of addresses (`afterReads`), and the address cycles of Operands.lean in
those terms. -/

namespace Sys2Proof.Machine

theorem afterReads_nil (s : State) : afterReads [] s = s := by unfold afterReads; exact List.foldl_nil

theorem afterReads_cons (a : Word) (as : List Word) (s : State) :
    afterReads (a :: as) s = afterReads as (rd s a).2 := by unfold afterReads; exact List.foldl_cons

theorem afterReads_append (as bs : List Word) (s : State) :
    afterReads (as ++ bs) s = afterReads bs (afterReads as s) := by unfold afterReads; rw [List.foldl_append]

theorem afterReads_one (a : Word) (s : State) : afterReads [a] s = dummyRead a s := by
  rw [afterReads_cons, afterReads_nil]; unfold dummyRead; exact Eq.refl _

theorem readOnly_afterReads (as : List Word) (s : State) : ReadOnly s (afterReads as s) as.length := by
  induction as generalizing s with
  | nil => rw [afterReads_nil]; exact .refl s
  | cons a as ih =>
    rw [afterReads_cons, List.length_cons, Nat.add_comm]
    exact (readOnly_rd s a).trans (ih _)

/-- The dummy read of a carrying index, as a list (R177, R178, R181). -/
theorem indexCycle_eq (k : Kind) (base : Word) (index : Byte) (s : State) :
    indexCycle k base index s = afterReads (fixupReads k base index) s := by
  unfold indexCycle fixupReads crossesPage
  by_cases h : k = .read ∧ (loByte base).toNat + index.toNat ≤ 0xFF
  · rw [if_pos h, if_pos ⟨h.1, by simp; omega⟩, afterReads_nil]
  · rw [if_neg h, if_neg (fun g => h ⟨g.1, by have := g.2; simp at this; omega⟩), afterReads_one]
    unfold earlyAddr
    exact Eq.refl _

theorem zeroPageWord_congr {s t : State} (h : t.ram = s.ram) (p : Byte) : zeroPageWord t p = zeroPageWord s p := by
  unfold zeroPageWord; rw [h]

/-- A zero-page pointer: its word from RAM, two reads (R180, R181). -/
theorem readPointer_eq (p : Byte) (s : State) :
    readPointer p s = (zeroPageWord s p, afterReads [zeroPage p, zeroPage (p + 1)] s) := by
  apply Prod.ext
  · rw [readPointer_fst]; unfold zeroPageWord; exact Eq.refl _
  · rw [readPointer_snd, afterReads_cons, afterReads_cons, afterReads_nil]

end Sys2Proof.Machine
end

