-- ==== Sys2Proof/Laws/Blind.lean ====
section
/-! SUPPORT. The bus and the other units do not look at the processor's registers (R91): a bus cycle commutes with every
change of the processor that leaves its counters, its NMI latches and its DMA request alone. -/

namespace Sys2Proof.Machine

/-- `f` neither reads nor changes the processor. -/
def CpuBlind (f : State → State) : Prop := ∀ (s : State) (c : Cpu), f { s with cpu := c } = { f s with cpu := c }

theorem CpuBlind.comp {f g : State → State} (hf : CpuBlind f) (hg : CpuBlind g) : CpuBlind fun s => f (g s) := by
  intro s c
  show f (g { s with cpu := c }) = _
  rw [hg, hf]

theorem CpuBlind.whenDo {f : State → State} (b : Bool) (hf : CpuBlind f) : CpuBlind (whenDo b f) := by
  intro s c
  unfold Machine.whenDo
  split
  · exact hf s c
  · rfl

theorem cpuBlind_onPpu (f : Ppu → Ppu) : CpuBlind (onPpu f) := fun _ _ => rfl

theorem cpuBlind_fetchStep (d : Nat) : CpuBlind (backgroundFetchStep d) := by
  intro s c; unfold backgroundFetchStep; dsimp only; split <;> rfl

theorem cpuBlind_dotFetch (line d : Nat) : CpuBlind (dotFetch line d) := by
  unfold dotFetch
  refine (CpuBlind.whenDo _ fun _ _ => rfl).comp ?_
  refine (CpuBlind.whenDo _ (cpuBlind_onPpu _)).comp ?_
  refine (CpuBlind.whenDo _ (cpuBlind_onPpu _)).comp ?_
  refine (CpuBlind.whenDo _ (cpuBlind_onPpu _)).comp ?_
  refine (CpuBlind.whenDo _ (cpuBlind_onPpu _)).comp ?_
  refine (CpuBlind.whenDo _ fun _ _ => rfl).comp ?_
  refine (CpuBlind.whenDo _ (cpuBlind_onPpu _)).comp ?_
  refine (CpuBlind.whenDo _ (cpuBlind_onPpu _)).comp ?_
  refine (CpuBlind.whenDo _ (cpuBlind_fetchStep d)).comp ?_
  refine (CpuBlind.whenDo _ (cpuBlind_onPpu _)).comp ?_
  exact CpuBlind.whenDo _ (cpuBlind_onPpu _)

theorem cpuBlind_dotWork (line d : Nat) (re : Bool) : CpuBlind (dotWork line d re) := by
  unfold dotWork
  exact (CpuBlind.whenDo _ (cpuBlind_onPpu _)).comp ((CpuBlind.whenDo _ (cpuBlind_dotFetch line d)).comp (cpuBlind_onPpu _))

theorem cpuBlind_advance (re : Bool) : CpuBlind (advanceCounters re) := by
  intro s c; unfold advanceCounters; dsimp only; split <;> rfl

/-- A dot neither reads nor changes the processor (R452). -/
theorem cpuBlind_ppuDot : CpuBlind ppuDot := by
  intro s c
  unfold ppuDot
  dsimp only
  rw [cpuBlind_dotWork, cpuBlind_advance]

/-- `f` changes nothing but general registers, flags, PC, S, the jam and the scratch cells, and looks at nothing else. -/
def RegOnly (f : Cpu → Cpu) : Prop :=
  ∀ (c : Cpu) (n t : Nat) (p q : Bool) (d : Option Byte),
    f { c with cycles := n, tick := t, nmiPrev := p, nmiPending := q, dmaPage := d } =
      { f c with cycles := n, tick := t, nmiPrev := p, nmiPending := q, dmaPage := d }

theorem RegOnly.same {f : Cpu → Cpu} (hf : RegOnly f) (c : Cpu) :
    f c = { f c with
      cycles := c.cycles, tick := c.tick, nmiPrev := c.nmiPrev, nmiPending := c.nmiPending, dmaPage := c.dmaPage } :=
  hf c c.cycles c.tick c.nmiPrev c.nmiPending c.dmaPage

theorem RegOnly.cycles {f : Cpu → Cpu} (hf : RegOnly f) (c : Cpu) : (f c).cycles = c.cycles := by rw [hf.same c]

theorem RegOnly.tick {f : Cpu → Cpu} (hf : RegOnly f) (c : Cpu) : (f c).tick = c.tick := by rw [hf.same c]

theorem RegOnly.dmaPage {f : Cpu → Cpu} (hf : RegOnly f) (c : Cpu) : (f c).dmaPage = c.dmaPage := by rw [hf.same c]

theorem RegOnly.nmiPrev {f : Cpu → Cpu} (hf : RegOnly f) (c : Cpu) : (f c).nmiPrev = c.nmiPrev := by rw [hf.same c]

theorem RegOnly.nmiPending {f : Cpu → Cpu} (hf : RegOnly f) (c : Cpu) : (f c).nmiPending = c.nmiPending := by
  rw [hf.same c]

theorem RegOnly.comp {f g : Cpu → Cpu} (hf : RegOnly f) (hg : RegOnly g) : RegOnly fun c => f (g c) := by
  intro c n t p q d
  show f (g _) = _
  rw [hg, hf]

/-- The state with another processor. -/
theorem onCpu_eq (f : Cpu → Cpu) (s : State) : onCpu f s = { s with cpu := f s.cpu } := rfl

/-- A tick commutes with a change of registers (R622). -/
theorem tick_onCpu {f : Cpu → Cpu} (hf : RegOnly f) (s : State) : tick (onCpu f s) = onCpu f (tick s) := by
  have h1 : countCycle (onCpu f s) = onCpu f (countCycle s) := by
    have e : f { s.cpu with cycles := s.cpu.cycles + 1, tick := s.cpu.tick + 1 } =
        { f s.cpu with cycles := s.cpu.cycles + 1, tick := s.cpu.tick + 1 } := by
      have h := hf s.cpu (s.cpu.cycles + 1) (s.cpu.tick + 1) s.cpu.nmiPrev s.cpu.nmiPending s.cpu.dmaPage
      rw [hf.same s.cpu]
      exact h
    unfold countCycle onCpu
    dsimp only
    rw [e, hf.cycles, hf.tick]
  have h2 : ∀ u : State, ppuDot (onCpu f u) = onCpu f (ppuDot u) := by
    intro u
    have hc := (dotFrame_ppuDot u).cpu
    rw [onCpu_eq, cpuBlind_ppuDot, onCpu_eq, hc]
  have h3 : ∀ u : State, apuTick (onCpu f u) = onCpu f (apuTick u) := by
    intro u
    unfold apuTick onCpu
    dsimp only
    rw [hf.cycles]
  have h4 : ∀ u : State, observeNmi (onCpu f u) = onCpu f (observeNmi u) := by
    intro u
    have e := hf u.cpu u.cpu.cycles u.cpu.tick (nmiLine u.ppu) (u.cpu.nmiPending || (nmiLine u.ppu && !u.cpu.nmiPrev))
      u.cpu.dmaPage
    unfold observeNmi onCpu
    dsimp only at e ⊢
    rw [e, hf.nmiPending, hf.nmiPrev]
    rw [hf.same u.cpu]
  unfold tick unitsCycle
  rw [mapperCycle_eq, mapperCycle_eq, h1, h2, h2, h2, h3, h4]

theorem busRead_onCpu (f : Cpu → Cpu) (s : State) (a : Word) :
    busRead (onCpu f s) a = ((busRead s a).1, onCpu f (busRead s a).2) := by
  have hm : mapperRead (onCpu f s) a = ((mapperRead s a).1, onCpu f (mapperRead s a).2) := by
    unfold mapperRead
    dsimp only [onCpu_cart, onCpu_openBus]
    split <;> rfl
  unfold busRead
  cases regionOf a with
  | ram => rfl
  | picture => cases ppuRegOf a <;> rfl
  | io =>
    dsimp only
    unfold ioRead
    split
    · rfl
    · split
      · rfl
      · split
        · rfl
        · exact hm
  | cartridge => exact hm

theorem busWrite_onCpu {f : Cpu → Cpu} (hf : RegOnly f) (s : State) (a : Word) (v : Byte) :
    busWrite (onCpu f s) a v = onCpu f (busWrite s a v) := by
  unfold busWrite
  cases regionOf a with
  | ram => rfl
  | picture =>
    dsimp only
    cases ppuRegOf a <;> try rfl
    have e : ∀ (u : State) (b : BitVec 14) (w : Byte), ppuWrite (onCpu f u) b w = onCpu f (ppuWrite u b w) := by
      intro u b w
      unfold ppuWrite
      dsimp only [onCpu_cart, onCpu_ppu]
      split
      · rfl
      · split
        · unfold ntWrite
          dsimp only [onCpu_cart, onCpu_ppu]
          split <;> rfl
        · rfl
    have g : ∀ u : State, writeData (onCpu f u) v = onCpu f (writeData u v) := by
      intro u
      unfold writeData
      dsimp only [onCpu_ppu]
      rw [e]
      rfl
    exact g { s with openBus := v, ppu := { s.ppu with ioLatch := v } }
  | io =>
    dsimp only
    unfold ioWrite
    split
    · rfl
    · split
      · have e := hf s.cpu s.cpu.cycles s.cpu.tick s.cpu.nmiPrev s.cpu.nmiPending (some v)
        unfold onCpu
        dsimp only at e ⊢
        rw [e, hf.same s.cpu]
      · split
        · rfl
        · split
          · rfl
          · unfold onCpu
            dsimp only
            rw [hf.cycles]
  | cartridge => rfl

/-- A read cycle commutes with a change of registers. -/
theorem rd_onCpu {f : Cpu → Cpu} (hf : RegOnly f) (s : State) (a : Word) :
    rd (onCpu f s) a = ((rd s a).1, onCpu f (rd s a).2) := by
  apply Prod.ext
  · rw [rd_fst, rd_fst, peek, peek, busRead_onCpu]
  · rw [rd_snd, rd_snd, busRead_onCpu, tick_onCpu hf]

/-- A write cycle commutes with a change of registers. -/
theorem wr_onCpu {f : Cpu → Cpu} (hf : RegOnly f) (s : State) (a : Word) (v : Byte) :
    wr (onCpu f s) a v = onCpu f (wr s a v) := by
  unfold wr
  rw [busWrite_onCpu hf, tick_onCpu hf]

theorem dummyRead_onCpu {f : Cpu → Cpu} (hf : RegOnly f) (a : Word) (s : State) :
    dummyRead a (onCpu f s) = onCpu f (dummyRead a s) := by
  unfold dummyRead; rw [rd_onCpu hf]

theorem afterReads_onCpu {f : Cpu → Cpu} (hf : RegOnly f) (as : List Word) (s : State) :
    afterReads as (onCpu f s) = onCpu f (afterReads as s) := by
  induction as generalizing s with
  | nil => rw [afterReads_nil, afterReads_nil]
  | cons a as ih => rw [afterReads_cons, afterReads_cons, rd_onCpu hf, ih]

end Sys2Proof.Machine
end

