-- ==== Sys2Proof/Laws/Invariant.lean ====
section
/-! SUPPORT. The invariant of Safety.lean through one dot, one tick, one bus access: each of them keeps it. -/

namespace Sys2Proof.Machine

/-! ### The Picture Unit, one dot -/

theorem sized_nil {width : Nat} (n : Nat) : Cells.sized ([] : Cells width) n := ⟨Cells.wf_nil, Cells.below_nil n⟩

theorem Cells.sized_write {width : Nat} {m : Cells width} {n k : Nat} (v : BitVec width) (h : Cells.sized m n)
    (hk : k < n) : Cells.sized (Cells.write m k v) n :=
  ⟨Cells.wf_write k v h.1, Cells.below_write v h.2 hk⟩

/-- What a line of part B of a dot keeps: memories, sprite cells, and the counters' values. -/
structure PipelineOk (p q : Ppu) : Prop where
  memories : p.MemoriesOk → q.MemoriesOk
  count    : p.oam2Count ≤ 8 → q.oam2Count ≤ 8
  units    : p.sprites.length = 8 → q.sprites.length = 8
  scanline : q.scanline = p.scanline
  dot      : q.dot = p.dot
  frame    : q.frame = p.frame
  parity   : q.oddFrame = p.oddFrame

theorem PipelineOk.refl (p : Ppu) : PipelineOk p p := ⟨id, id, id, rfl, rfl, rfl, rfl⟩

theorem PipelineOk.trans {p q r : Ppu} (h : PipelineOk p q) (k : PipelineOk q r) : PipelineOk p r :=
  ⟨k.memories ∘ h.memories, k.count ∘ h.count, k.units ∘ h.units, k.scanline.trans h.scanline, k.dot.trans h.dot,
    k.frame.trans h.frame, k.parity.trans h.parity⟩

theorem pipelineOk_whenDo {b : Bool} {f : State → State} {p : Ppu} {t : State} (h : PipelineOk p t.ppu)
    (hf : ∀ u : State, PipelineOk u.ppu (f u).ppu) : PipelineOk p (whenDo b f t).ppu := by
  unfold whenDo; split
  · exact h.trans (hf t)
  · exact h

theorem pipelineOk_fetchStep (d : Nat) (s : State) : PipelineOk s.ppu (backgroundFetchStep d s).ppu := by
  unfold backgroundFetchStep
  split <;> exact ⟨fun h => ⟨h.1, h.2, h.3, h.4, h.5, h.6⟩, id, id, rfl, rfl, rfl, rfl⟩

theorem sized_oam2Cleared : Cells.sized (width := 8) oam2Cleared 32 := by decide +kernel

theorem findSprites_ok (oam : Memory) (line h fuel n : Nat) (m : Memory) (count : Nat) (has0 : Bool)
    (hm : Cells.sized (width := 8) m 32) (hc : count ≤ 8) :
    Cells.sized (width := 8) (findSprites oam line h fuel n m count has0).1 32 ∧
      (findSprites oam line h fuel n m count has0).2.1 ≤ 8 := by
  induction fuel generalizing n m count has0 with
  | zero => exact ⟨hm, hc⟩
  | succ fuel ih =>
    unfold findSprites
    split
    · next hlt =>
      split
      · refine ih _ _ _ _ ⟨Cells.wf_writeList _ _ hm.1, Cells.below_writeList _ hm.2 ?_⟩ (by omega)
        simp; omega
      · exact ih _ _ _ _ hm hc
    · exact ⟨hm, hc⟩

theorem pipelineOk_spriteEvaluate (line : Nat) (s : State) : PipelineOk s.ppu (onPpu (spriteEvaluate line) s).ppu := by
  have h := findSprites_ok s.ppu.oam line (spriteHeight s.ppu) 64 0 oam2Cleared 0 false sized_oam2Cleared (by decide)
  exact ⟨fun g => ⟨g.1, g.2, g.3, h.1, g.5, g.6⟩, fun _ => h.2, id, rfl, rfl, rfl, rfl⟩

theorem pipelineOk_spriteFetch (line : Nat) (s : State) : PipelineOk s.ppu (spriteFetch line s).ppu :=
  ⟨fun h => ⟨h.1, h.2, h.3, h.4, h.5, h.6⟩, id, fun _ => by simp [spriteFetch], rfl, rfl, rfl, rfl⟩

theorem pipelineOk_dotFetch (line d : Nat) (s : State) : PipelineOk s.ppu (dotFetch line d s).ppu := by
  have simple : ∀ f : Ppu → Ppu,
      (∀ p : Ppu, (f p).vram = p.vram ∧ (f p).palette = p.palette ∧ (f p).oam = p.oam ∧ (f p).oam2 = p.oam2 ∧
        (f p).pixels = p.pixels ∧ (f p).frameOut = p.frameOut ∧ (p.oam2Count ≤ 8 → (f p).oam2Count ≤ 8) ∧
        (f p).sprites = p.sprites ∧ (f p).scanline = p.scanline ∧ (f p).dot = p.dot ∧ (f p).frame = p.frame ∧
        (f p).oddFrame = p.oddFrame) → ∀ u : State, PipelineOk u.ppu (onPpu f u).ppu := by
    intro f hf u
    obtain ⟨h1, h2, h3, h4, h5, h6, h7, h8, h9, h10, h11, h12⟩ := hf u.ppu
    refine ⟨fun g => ⟨?_, ?_, ?_, ?_, ?_, ?_⟩, h7, fun g => ?_, h9, h10, h11, h12⟩
    · show Cells.sized (width := 8) (f u.ppu).vram _; rw [h1]; exact g.vram
    · show Cells.sized (f u.ppu).palette _; rw [h2]; exact g.palette
    · show Cells.sized (width := 8) (f u.ppu).oam _; rw [h3]; exact g.oam
    · show Cells.sized (width := 8) (f u.ppu).oam2 _; rw [h4]; exact g.oam2
    · show Cells.sized (f u.ppu).pixels _; rw [h5]; exact g.pixels
    · show Cells.sized (f u.ppu).frameOut _; rw [h6]; exact g.frameOut
    · show (f u.ppu).sprites.length = 8; rw [h8]; exact g
  unfold dotFetch
  refine pipelineOk_whenDo ?_ (pipelineOk_spriteFetch line)
  refine pipelineOk_whenDo ?_ (simple _ fun p => by simp)
  refine pipelineOk_whenDo ?_ (pipelineOk_spriteEvaluate line)
  refine pipelineOk_whenDo ?_ (simple _ fun p => by simp)
  refine pipelineOk_whenDo ?_ (simple _ fun p => by simp)
  refine pipelineOk_whenDo ?_ fun u => ⟨fun h => ⟨h.1, h.2, h.3, h.4, h.5, h.6⟩, id, id, rfl, rfl, rfl, rfl⟩
  refine pipelineOk_whenDo ?_ (simple _ fun p => by simp)
  refine pipelineOk_whenDo ?_ (simple _ fun p => by simp)
  refine pipelineOk_whenDo ?_ (pipelineOk_fetchStep d)
  refine pipelineOk_whenDo ?_ (simple _ fun p => by simp [reloadShifters])
  refine pipelineOk_whenDo ?_ (simple _ fun p => by simp [shiftBackground])
  exact .refl _

theorem pipelineOk_outputPixel {x y : Nat} (hx : x < 256) (hy : y < 240) (s : State) :
    PipelineOk s.ppu (onPpu (outputPixel x y) s).ppu :=
  ⟨fun h => ⟨h.1, h.2, h.3, h.4, Cells.sized_write _ h.5 (by unfold frameCells; omega), h.6⟩, id, id, rfl, rfl, rfl, rfl⟩

theorem pipelineOk_dotFlags (s : State) : PipelineOk s.ppu (onPpu dotFlags s).ppu := by
  show PipelineOk s.ppu (dotFlags s.ppu)
  unfold dotFlags
  split
  · exact ⟨fun h => ⟨h.1, h.2, h.3, h.4, h.5, h.6⟩, id, id, rfl, rfl, rfl, rfl⟩
  · split
    · exact ⟨fun h => ⟨h.1, h.2, h.3, h.4, h.5, h.5⟩, id, id, rfl, rfl, rfl, rfl⟩
    · exact .refl _

/-- The counters stay in the raster (R46, R451, R453). -/
theorem rasterOk_advance {p : Ppu} (re : Bool) (h : p.RasterOk) :
    (if lastDot p re ≤ p.dot then nextLine p else { p with dot := p.dot + 1 }).RasterOk := by
  obtain ⟨h1, h2, h3, h4, h5⟩ := h
  unfold scanlinesPerFrame at h1
  unfold dotsPerScanline at h2
  split
  · unfold nextLine
    split
    · refine ⟨by simp [scanlinesPerFrame], by simp [dotsPerScanline], ?_, h4, h5⟩
      show (!p.oddFrame) = decide ((p.frame + 1) % 2 = 1)
      rw [h3]
      rcases Nat.mod_two_eq_zero_or_one p.frame with h | h
      · have : (p.frame + 1) % 2 = 1 := by omega
        simp [h, this]
      · have : (p.frame + 1) % 2 = 0 := by omega
        simp [h, this]
    · refine ⟨?_, by simp [dotsPerScanline], h3, h4, h5⟩
      show p.scanline + 1 < scanlinesPerFrame
      unfold scanlinesPerFrame
      omega
  · next hlt =>
    refine ⟨h1, ?_, h3, h4, h5⟩
    show p.dot + 1 < dotsPerScanline
    have : lastDot p re ≤ 340 := by unfold lastDot; split <;> omega
    unfold dotsPerScanline
    omega

/-- A dot up to its counters. -/
theorem pipelineOk_dotWork (line d : Nat) (re : Bool) (s : State) : PipelineOk s.ppu (dotWork line d re s).ppu := by
  unfold dotWork
  refine PipelineOk.trans (pipelineOk_whenDo (b := re && decide (line ≤ 239 ∨ line = 261)) (pipelineOk_dotFlags s)
    (pipelineOk_dotFetch line d)) ?_
  dsimp only
  generalize whenDo (re && decide (line ≤ 239 ∨ line = 261)) (dotFetch line d) (onPpu dotFlags s) = t
  unfold whenDo
  split
  · next h =>
    simp only [decide_eq_true_eq] at h
    exact pipelineOk_outputPixel (by omega) (by omega) t
  · exact .refl _

theorem onScanline_empty (c : Cartridge) (ended : Nat) (re : Bool) :
    (onScanline c ended re).variant = .empty ↔ c.variant = .empty := by
  unfold onScanline
  split
  · next h => split <;> simp [h]
  · rfl

/-- The scanline hook leaves every bank register (R605). -/
theorem masked_onScanline {p : ChipParams} {c : Cartridge} (ended : Nat) (re : Bool) (h : c.variant.Masked p) :
    (onScanline c ended re).variant.Masked p := by
  unfold onScanline
  split
  · next r hv =>
    rw [hv] at h
    split
    · show Variant.Masked p (.scanlineIrq r.clock)
      unfold ScanlineRegs.clock
      dsimp only
      repeat' split
      all_goals exact h
    · rw [hv]; exact h
  · exact h

theorem StorageOk_of_eq {c c' : Cartridge} (h : c.StorageOk) (h1 : c'.prg = c.prg) (h2 : c'.prgLen = c.prgLen)
    (h3 : c'.chr = c.chr) (h4 : c'.chrLen = c.chrLen) (h5 : c'.prgRam = c.prgRam) (h6 : c'.ntExtra = c.ntExtra)
    (h7 : c'.variant = .empty ↔ c.variant = .empty) (h8 : c'.mirroringHdr = c.mirroringHdr) : c'.StorageOk := by
  obtain ⟨g1, g2, g3, g4, g5, g6⟩ := h
  exact ⟨by rwa [h1, h2], by rwa [h3, h4], by rwa [h5], by rwa [h6], by rw [h2, h4, ne_eq, h7]; exact g5, by rwa [h6, h8]⟩

/-- One dot keeps the invariant. -/
theorem inv_ppuDot {s : State} (h : s.Inv) : (ppuDot s).Inv := by
  have hp := pipelineOk_dotWork s.ppu.scanline s.ppu.dot (rendering s.ppu) s
  have hf := dotFrame_dotWork s.ppu.scanline s.ppu.dot (rendering s.ppu) s
  have hc := cart_dotWork s.ppu.scanline s.ppu.dot (rendering s.ppu) s
  unfold ppuDot
  generalize dotWork s.ppu.scanline s.ppu.dot (rendering s.ppu) s = u at hp hf hc ⊢
  have hr : u.ppu.RasterOk :=
    ⟨by rw [hp.scanline]; exact h.raster.scanline, by rw [hp.dot]; exact h.raster.dot,
      by rw [hp.parity, hp.frame]; exact h.raster.parity, hp.count h.raster.count, hp.units h.raster.units⟩
  have hm := hp.memories h.memories
  have hs : u.cart.StorageOk := by rw [hc]; exact h.storage
  have hmask : u.cart.variant.Masked u.chip := by rw [hc, hf.mem.chip]; exact h.masked
  have hadv := rasterOk_advance (rendering s.ppu) hr
  unfold advanceCounters
  split
  · next hd =>
    rw [if_pos hd] at hadv
    obtain ⟨v, hv⟩ := onScanline_eq u.cart u.ppu.scanline (rendering s.ppu)
    have he := onScanline_empty u.cart u.ppu.scanline (rendering s.ppu)
    have hk := masked_onScanline u.ppu.scanline (rendering s.ppu) hmask
    rw [hv] at he hk ⊢
    refine ⟨?_, ?_, hadv, StorageOk_of_eq hs rfl rfl rfl rfl rfl rfl he rfl, ?_, hk⟩
    · show Cells.sized (width := 8) u.ram 0x800; rw [hf.ram]; exact h.ram
    · show (nextLine u.ppu).MemoriesOk
      unfold nextLine
      split <;> exact ⟨hm.1, hm.2, hm.3, hm.4, hm.5, hm.6⟩
    · show u.apu.ChannelsOk; rw [hf.apu]; exact h.channels
  · next hd =>
    rw [if_neg hd] at hadv
    refine ⟨?_, ⟨hm.1, hm.2, hm.3, hm.4, hm.5, hm.6⟩, hadv, hs, ?_, hmask⟩
    · show Cells.sized (width := 8) u.ram 0x800; rw [hf.ram]; exact h.ram
    · show u.apu.ChannelsOk; rw [hf.apu]; exact h.channels

/-! ### The Audio Unit -/

theorem lengthClock_zero (halt : Bool) : lengthClock halt 0 = 0 := by simp [lengthClock]

/-- The noise shift register never becomes 0 (R535). -/
theorem lfsrNext_ne_zero (mode : Bool) {l : BitVec 15} (h : l ≠ 0) : lfsrNext mode l ≠ 0 := by
  intro hz
  apply h
  have bit : ∀ i : Nat, i < 14 → l.getLsbD (i + 1) = false := by
    intro i hi
    have : (lfsrNext mode l).getLsbD i = l.getLsbD (i + 1) := by
      show (BitVec.ofBool (xor (l.getLsbD 0) (if mode then l.getLsbD 6 else l.getLsbD 1)) ++
        l.extractLsb' 1 14 : BitVec (1 + 14)).getLsbD i = _
      rw [BitVec.getLsbD_append, if_pos hi, BitVec.getLsbD_extractLsb', Nat.add_comm]
      simp [hi]
    rw [← this, hz]; simp
  have top : (xor (l.getLsbD 0) (if mode then l.getLsbD 6 else l.getLsbD 1)) = false := by
    have : (lfsrNext mode l).getLsbD 14 = xor (l.getLsbD 0) (if mode then l.getLsbD 6 else l.getLsbD 1) := by
      show (BitVec.ofBool (xor (l.getLsbD 0) (if mode then l.getLsbD 6 else l.getLsbD 1)) ++
        l.extractLsb' 1 14 : BitVec (1 + 14)).getLsbD 14 = _
      rw [BitVec.getLsbD_append, if_neg (by omega)]
      simp
    rw [← this, hz]; simp
  have b0 : l.getLsbD 0 = false := by
    have h1 := bit 0 (by omega)
    have h6 := bit 5 (by omega)
    simp only [Nat.zero_add] at h1
    cases mode <;> simp_all
  apply BitVec.eq_of_getLsbD_eq
  intro i hi
  rcases i with _ | i
  · rw [b0]; simp
  · rw [bit i (by omega)]; simp

/-- What every line of the sequencer keeps of the channels: enable bits, the silence of a disabled channel, and the cells
of the delta-modulation channel and the shift register. -/
structure ClockOk (u w : Apu) : Prop where
  pulse1     : w.pulse1.enabled = u.pulse1.enabled ∧ (u.pulse1.length = 0 → w.pulse1.length = 0)
  pulse2     : w.pulse2.enabled = u.pulse2.enabled ∧ (u.pulse2.length = 0 → w.pulse2.length = 0)
  triangle   : w.triangle.enabled = u.triangle.enabled ∧ (u.triangle.length = 0 → w.triangle.length = 0)
  noise      : w.noise.enabled = u.noise.enabled ∧ (u.noise.length = 0 → w.noise.length = 0)
  lfsr       : w.noise.lfsr = u.noise.lfsr
  dmc        : w.dmc = u.dmc
  resetDelay : w.seq.resetDelay ≤ u.seq.resetDelay

theorem ClockOk.refl (u : Apu) : ClockOk u u :=
  ⟨⟨rfl, id⟩, ⟨rfl, id⟩, ⟨rfl, id⟩, ⟨rfl, id⟩, rfl, rfl, Nat.le_refl _⟩

theorem ClockOk.trans {u v w : Apu} (h : ClockOk u v) (k : ClockOk v w) : ClockOk u w :=
  ⟨⟨k.pulse1.1.trans h.pulse1.1, k.pulse1.2 ∘ h.pulse1.2⟩, ⟨k.pulse2.1.trans h.pulse2.1, k.pulse2.2 ∘ h.pulse2.2⟩,
    ⟨k.triangle.1.trans h.triangle.1, k.triangle.2 ∘ h.triangle.2⟩,
    ⟨k.noise.1.trans h.noise.1, k.noise.2 ∘ h.noise.2⟩, k.lfsr.trans h.lfsr, k.dmc.trans h.dmc,
    Nat.le_trans k.resetDelay h.resetDelay⟩

theorem clockOk_quarter (u : Apu) : ClockOk u u.quarter :=
  ⟨⟨rfl, id⟩, ⟨rfl, id⟩, ⟨rfl, id⟩, ⟨rfl, id⟩, rfl, rfl, Nat.le_refl _⟩

theorem sweepClock_enabled (p : Pulse) (b : Bool) : (p.sweepClock b).enabled = p.enabled := by
  unfold Pulse.sweepClock; dsimp only; split <;> rfl

theorem sweepClock_length (p : Pulse) (b : Bool) : (p.sweepClock b).length = p.length := by
  unfold Pulse.sweepClock; dsimp only; split <;> rfl

theorem clockOk_half (u : Apu) : ClockOk u u.half := by
  refine ⟨⟨?_, fun h => ?_⟩, ⟨?_, fun h => ?_⟩, ⟨rfl, fun h => ?_⟩, ⟨rfl, fun h => ?_⟩, rfl, rfl, Nat.le_refl _⟩
  · exact sweepClock_enabled _ _
  · show (u.pulse1.lengthClock.sweepClock true).length = 0
    rw [sweepClock_length]
    show lengthClock u.pulse1.halt u.pulse1.length = 0
    rw [h]; exact lengthClock_zero _
  · exact sweepClock_enabled _ _
  · show (u.pulse2.lengthClock.sweepClock false).length = 0
    rw [sweepClock_length]
    show lengthClock u.pulse2.halt u.pulse2.length = 0
    rw [h]; exact lengthClock_zero _
  · show lengthClock u.triangle.ctrl u.triangle.length = 0
    rw [h]; exact lengthClock_zero _
  · show lengthClock u.noise.halt u.noise.length = 0
    rw [h]; exact lengthClock_zero _

theorem clockOk_setFsCycle (u : Apu) (n : Nat) : ClockOk u (u.setFsCycle n) :=
  ⟨⟨rfl, id⟩, ⟨rfl, id⟩, ⟨rfl, id⟩, ⟨rfl, id⟩, rfl, rfl, Nat.le_refl _⟩

theorem clockOk_raiseFrameIrq (u : Apu) : ClockOk u u.raiseFrameIrq :=
  ⟨⟨rfl, id⟩, ⟨rfl, id⟩, ⟨rfl, id⟩, ⟨rfl, id⟩, rfl, rfl, Nat.le_refl _⟩

theorem clockOk_schedule4 (u : Apu) : ClockOk u u.schedule4 := by
  unfold Apu.schedule4
  split
  · exact clockOk_quarter u
  split
  · exact (clockOk_quarter u).trans (clockOk_half _)
  split
  · exact clockOk_quarter u
  split
  · exact clockOk_raiseFrameIrq u
  split
  · exact ((clockOk_quarter u).trans (clockOk_half _)).trans (clockOk_raiseFrameIrq _)
  split
  · exact (clockOk_raiseFrameIrq u).trans (clockOk_setFsCycle _ _)
  · exact .refl u

theorem clockOk_schedule5 (u : Apu) : ClockOk u u.schedule5 := by
  unfold Apu.schedule5
  split
  · exact clockOk_quarter u
  split
  · exact (clockOk_quarter u).trans (clockOk_half _)
  split
  · exact clockOk_quarter u
  split
  · exact (clockOk_quarter u).trans (clockOk_half _)
  split
  · exact clockOk_setFsCycle _ _
  · exact .refl u

/-- `reset_delay <- reset_delay - 1`. -/
theorem clockOk_countDelay (u : Apu) : ClockOk u { u with seq := { u.seq with resetDelay := u.seq.resetDelay - 1 } } :=
  ⟨⟨rfl, id⟩, ⟨rfl, id⟩, ⟨rfl, id⟩, ⟨rfl, id⟩, rfl, rfl, Nat.sub_le ..⟩

theorem clockOk_delayedRestart (u : Apu) : ClockOk u u.delayedRestart := by
  unfold Apu.delayedRestart
  split
  · exact .refl u
  · refine (clockOk_countDelay u).trans ?_
    dsimp only
    split
    · refine (clockOk_setFsCycle _ 0).trans ?_
      split
      · exact (clockOk_quarter _).trans (clockOk_half _)
      · exact .refl _
    · exact .refl _

theorem clockOk_sequencerTick (u : Apu) : ClockOk u u.sequencerTick := by
  unfold Apu.sequencerTick
  refine (clockOk_setFsCycle u (u.seq.cycle + 1)).trans ?_
  dsimp only
  split
  · exact (clockOk_schedule5 _).trans (clockOk_delayedRestart _)
  · exact (clockOk_schedule4 _).trans (clockOk_delayedRestart _)

theorem Apu.ChannelsOk.of_clock {u w : Apu} (h : u.ChannelsOk) (k : ClockOk u w) : w.ChannelsOk := by
  obtain ⟨h1, h2, h3, h4, h5, h6, h7, h8⟩ := h
  obtain ⟨⟨k1, k1'⟩, ⟨k2, k2'⟩, ⟨k3, k3'⟩, ⟨k4, k4'⟩, k5, k6, k7⟩ := k
  exact ⟨fun g => k1' (h1 (k1 ▸ g)), fun g => k2' (h2 (k2 ▸ g)), fun g => k3' (h3 (k3 ▸ g)), fun g => k4' (h4 (k4 ▸ g)),
    by rw [k5]; exact h5, by rw [k6]; exact h6, by rw [k6]; exact h7, Nat.le_trans k7 h8⟩

theorem pulseTimerTick_eq (p : Pulse) : p.timerTick.enabled = p.enabled ∧ p.timerTick.length = p.length := by
  unfold Pulse.timerTick; split <;> exact ⟨rfl, rfl⟩

theorem triangleTimerTick_eq (t : Triangle) : t.timerTick.enabled = t.enabled ∧ t.timerTick.length = t.length := by
  unfold Triangle.timerTick; split <;> exact ⟨rfl, rfl⟩

theorem noiseTimerTick_eq (n : Noise) (k : Nat) : (n.timerTick k).enabled = n.enabled ∧ (n.timerTick k).length = n.length := by
  unfold Noise.timerTick; split <;> exact ⟨rfl, rfl⟩

theorem noiseTimerTick_lfsr (n : Noise) (k : Nat) (h : n.lfsr ≠ 0) : (n.timerTick k).lfsr ≠ 0 := by
  unfold Noise.timerTick
  split
  · exact lfsrNext_ne_zero _ h
  · exact h

/-- The invariant of the delta-modulation channel alone. -/
def Dmc.Ok (d : Dmc) : Prop :=
  (1 ≤ d.bitsLeft.toNat ∧ d.bitsLeft.toNat ≤ 8) ∧ (d.bytesLeft ≠ 0 → 0x8000 ≤ d.curAddr.toNat)

theorem dmcOk_timerTick {d : Dmc} (h : d.Ok) : d.timerTick.Ok := by
  unfold Dmc.timerTick
  split
  · exact h
  · unfold Dmc.outputClock
    dsimp only
    split
    · exact ⟨show 1 ≤ (8 : BitVec 4).toNat ∧ (8 : BitVec 4).toNat ≤ 8 by decide, h.2⟩
    · next hb =>
      refine ⟨?_, h.2⟩
      show 1 ≤ (d.bitsLeft - 1).toNat ∧ (d.bitsLeft - 1).toNat ≤ 8
      have := h.1
      have h0 : (d.bitsLeft - 1).toNat ≠ 0 := fun e => hb (BitVec.eq_of_toNat_eq (by simpa using e))
      rw [BitVec.toNat_sub] at h0 ⊢
      simp at h0 ⊢
      omega

theorem dmcOk_restart {d : Dmc} (h : 1 ≤ d.bitsLeft.toNat ∧ d.bitsLeft.toNat ≤ 8) : d.restart.Ok := by
  refine ⟨h, fun _ => ?_⟩
  show 0x8000 ≤ ((0xC000 : Word) + 64 * d.addrReg.setWidth 16).toNat
  have := d.addrReg.isLt
  rw [BitVec.toNat_add, BitVec.toNat_mul]
  simp
  omega

theorem dmcOk_readerStep {d : Dmc} (b : Byte) (h : d.Ok) : (d.readerStep b).Ok := by
  unfold Dmc.readerStep
  split
  · next hc =>
    have hcur := h.2 hc.2
    have hnext : 0x8000 ≤ (if d.curAddr = 0xFFFF then (0x8000 : Word) else d.curAddr + 1).toNat := by
      split
      · decide
      · next hn =>
        have : d.curAddr.toNat ≠ 0xFFFF := fun e => hn (BitVec.eq_of_toNat_eq (by simpa using e))
        rw [BitVec.toNat_add]
        simp
        omega
    dsimp only
    split
    · split
      · exact dmcOk_restart h.1
      · split
        · exact ⟨h.1, fun _ => hnext⟩
        · exact ⟨h.1, fun _ => hnext⟩
    · exact ⟨h.1, fun _ => hnext⟩
  · exact h

/-- One audio tick keeps the invariant (R520). -/
theorem channelsOk_tick {u : Apu} (tableLen cycles : Nat) (fetch : Word → Byte) (h : u.ChannelsOk) :
    (u.tick tableLen cycles fetch).ChannelsOk := by
  have k := h.of_clock (clockOk_sequencerTick u)
  unfold Apu.tick
  dsimp only
  generalize u.sequencerTick = w at k ⊢
  have hd : (w.dmc.timerTick.readerStep (fetch w.dmc.timerTick.curAddr)).Ok :=
    dmcOk_readerStep _ (dmcOk_timerTick ⟨k.bitsLeft, k.sample⟩)
  have ht := triangleTimerTick_eq w.triangle
  have hn := noiseTimerTick_eq w.noise tableLen
  have hl := noiseTimerTick_lfsr w.noise tableLen k.lfsr
  have h1 := pulseTimerTick_eq w.pulse1
  have h2 := pulseTimerTick_eq w.pulse2
  unfold Apu.pulseTimers
  split
  · exact ⟨fun g => by rw [h1.2]; exact k.pulse1 (h1.1 ▸ g), fun g => by rw [h2.2]; exact k.pulse2 (h2.1 ▸ g),
      fun g => by rw [ht.2]; exact k.triangle (ht.1 ▸ g), fun g => by rw [hn.2]; exact k.noise (hn.1 ▸ g), hl, hd.1, hd.2,
      k.resetDelay⟩
  · exact ⟨k.pulse1, k.pulse2, fun g => by rw [ht.2]; exact k.triangle (ht.1 ▸ g),
      fun g => by rw [hn.2]; exact k.noise (hn.1 ▸ g), hl, hd.1, hd.2, k.resetDelay⟩

theorem channelsOk_enableWrite {u : Apu} (val : Byte) (h : u.ChannelsOk) : (u.enableWrite val).ChannelsOk := by
  have en : ∀ (b : Bool) (l : Byte), b = false → enabledLength b l = 0 := by rintro _ _ rfl; rfl
  have hd : ((if val.getLsbD 4 = false then { u.dmc with bytesLeft := 0 }
      else if u.dmc.bytesLeft = 0 then u.dmc.restart else u.dmc) : Dmc).Ok := by
    split
    · exact ⟨h.bitsLeft, fun g => absurd rfl g⟩
    · split
      · exact dmcOk_restart h.bitsLeft
      · exact ⟨h.bitsLeft, h.sample⟩
  exact ⟨en _ _, en _ _, en _ _, en _ _, h.lfsr, hd.1, hd.2, h.resetDelay⟩

theorem loadedLength_disabled {enabled : Bool} (l v : Byte) (h : enabled = false) : loadedLength enabled l v = l := by
  subst h; rfl

theorem channelsOk_channelWrite {u : Apu} (offset : Nat) (val : Byte) (h : u.ChannelsOk) :
    (u.channelWrite offset val).ChannelsOk := by
  obtain ⟨h1, h2, h3, h4, h5, h6, h7, h8⟩ := h
  unfold Apu.channelWrite
  split
  · refine ⟨?_, h2, h3, h4, h5, h6, h7, h8⟩
    unfold Pulse.write
    split <;> intro g
    · exact h1 g
    · exact h1 g
    · exact h1 g
    · exact (loadedLength_disabled _ _ g).trans (h1 g)
  · refine ⟨h1, ?_, h3, h4, h5, h6, h7, h8⟩
    unfold Pulse.write
    split <;> intro g
    · exact h2 g
    · exact h2 g
    · exact h2 g
    · exact (loadedLength_disabled _ _ g).trans (h2 g)
  · refine ⟨h1, h2, ?_, h4, h5, h6, h7, h8⟩
    unfold Triangle.write
    split <;> intro g
    · exact h3 g
    · exact h3 g
    · exact h3 g
    · exact (loadedLength_disabled _ _ g).trans (h3 g)
  · unfold Noise.write
    split
    · exact ⟨h1, h2, h3, h4, h5, h6, h7, h8⟩
    · exact ⟨h1, h2, h3, h4, h5, h6, h7, h8⟩
    · exact ⟨h1, h2, h3, h4, h5, h6, h7, h8⟩
    · exact ⟨h1, h2, h3, fun g => (loadedLength_disabled _ _ g).trans (h4 g), h5, h6, h7, h8⟩
  · unfold Dmc.write
    split <;> exact ⟨h1, h2, h3, h4, h5, h6, h7, h8⟩

theorem channelsOk_seqWrite {u : Apu} (val : Byte) (cycle : Nat) (h : u.ChannelsOk) :
    ({ u with seq := u.seq.write val cycle } : Apu).ChannelsOk := by
  obtain ⟨h1, h2, h3, h4, h5, h6, h7, h8⟩ := h
  refine ⟨h1, h2, h3, h4, h5, h6, h7, ?_⟩
  show (if cycle % 2 = 0 then 4 else 5) ≤ 5
  split <;> omega

/-! ### One cycle -/

/-- A state that differs from one with the invariant only in cells it does not speak of. -/
theorem Inv_of_eq {s t : State} (h : s.Inv) (hr : t.ram = s.ram) (hm : s.ppu.MemoriesOk → t.ppu.MemoriesOk)
    (ha : s.ppu.RasterOk → t.ppu.RasterOk) (hc : t.cart = s.cart) (hu : s.apu.ChannelsOk → t.apu.ChannelsOk)
    (hk : t.chip = s.chip := by rfl) : t.Inv :=
  ⟨by rw [hr]; exact h.ram, hm h.memories, ha h.raster, by rw [hc]; exact h.storage, hu h.channels,
    by rw [hc, hk]; exact h.masked⟩

theorem inv_onCpu {s : State} (f : Cpu → Cpu) (h : s.Inv) : (onCpu f s).Inv := Inv_of_eq h rfl id id rfl id

theorem inv_countCycle {s : State} (h : s.Inv) : (countCycle s).Inv := Inv_of_eq h rfl id id rfl id

theorem inv_apuTick {s : State} (h : s.Inv) : (apuTick s).Inv := Inv_of_eq h rfl id id rfl fun k => channelsOk_tick _ _ _ k

theorem inv_observeNmi {s : State} (h : s.Inv) : (observeNmi s).Inv := Inv_of_eq h rfl id id rfl id

/-- The tick of a cycle keeps the invariant (R622). -/
theorem inv_tick {s : State} (h : s.Inv) : (tick s).Inv := by
  unfold tick unitsCycle
  rw [mapperCycle_eq]
  exact inv_observeNmi (inv_apuTick (inv_ppuDot (inv_ppuDot (inv_ppuDot (inv_countCycle h)))))

theorem inv_drive {s : State} (v : Byte) (h : s.Inv) : (drive v s).2.Inv := Inv_of_eq h rfl id id rfl id

theorem inv_mapperRead {s : State} (a : Word) (h : s.Inv) : (mapperRead s a).2.Inv := by
  unfold mapperRead
  split
  · exact inv_drive _ h
  · exact h

theorem inv_ppuRegRead {s : State} (r : PpuReg) (h : s.Inv) : (ppuRegRead s r).2.Inv := by
  cases r <;>
    first
    | exact h
    | exact Inv_of_eq h rfl (fun m => ⟨m.1, m.2, m.3, m.4, m.5, m.6⟩) (fun a => ⟨a.1, a.2, a.3, a.4, a.5⟩) rfl id

/-- A bus read keeps the invariant. -/
theorem inv_busRead {s : State} (a : Word) (h : s.Inv) : (busRead s a).2.Inv := by
  unfold busRead
  split
  · exact inv_drive _ h
  · exact inv_drive _ (inv_ppuRegRead _ h)
  · unfold ioRead
    split
    · exact Inv_of_eq h rfl id id rfl fun k => ⟨k.1, k.2, k.3, k.4, k.5, k.6, k.7, k.8⟩
    · split
      · exact inv_drive _ (Inv_of_eq h rfl id id rfl id)
      · split
        · exact inv_drive _ (Inv_of_eq h rfl id id rfl id)
        · exact inv_mapperRead a h
  · exact inv_mapperRead a h

theorem inv_rd {s : State} (a : Word) (h : s.Inv) : (rd s a).2.Inv := by
  rw [rd_snd]; exact inv_tick (inv_busRead a h)

theorem ntPage_lt (m : Mirroring) {tbl : Nat} (h : tbl < 4) : ntPage m tbl < 4 := by
  cases m <;> simp [ntPage] <;> omega

/-- Only four-screen mirroring shows a page beyond the two of `vram` (R111). -/
theorem ntPage_two_pages {m : Mirroring} {tbl : Nat} (hm : m ≠ .fourScreen) (h : tbl < 4) : ntPage m tbl < 2 := by
  cases m <;> simp [ntPage] at hm ⊢ <;> omega

/-- Four-screen mirroring comes from the header alone (R589, R590, R593, R600). -/
theorem mirroringHdr_of_fourScreen {c : Cartridge} (h : mirroring c = .fourScreen) : c.mirroringHdr = .fourScreen := by
  unfold mirroring at h
  split at h
  · cases h
  · split at h
    · assumption
    · split at h <;> cases h
  · revert h
    cases c.mirroringHdr <;> simp [HeaderMirroring.mode]

theorem palIndex_lt {i : Nat} (h : i < 32) : palIndex i < 32 := by
  unfold palIndex; split <;> omega

theorem chrIndex_lt (c : Cartridge) (a : BitVec 14) (h : 0 < c.chrLen) : chrIndex c a < c.chrLen := by
  unfold chrIndex
  split
  · exact Nat.mod_lt _ h
  · exact Nat.mod_lt _ h

theorem storageOk_ppuChrWrite {c : Cartridge} (a : BitVec 14) (v : Byte) (h : c.StorageOk) :
    (ppuChrWrite c a v).StorageOk := by
  unfold ppuChrWrite
  split
  · exact h
  · next hne =>
    split
    · exact ⟨h.prg, Cells.sized_write v h.chr (chrIndex_lt c a (h.nonempty hne).2.2), h.prgRam, h.ntExtra, h.nonempty,
        h.absent⟩
    · exact h

theorem ppuChrWrite_variant (c : Cartridge) (a : BitVec 14) (v : Byte) : (ppuChrWrite c a v).variant = c.variant := by
  unfold ppuChrWrite
  split
  · rfl
  · split <;> rfl

theorem inv_ntWrite {s : State} {off : Nat} (v : Byte) (hoff : off < 0x1000) (h : s.Inv) : (ntWrite s off v).Inv := by
  have hp := ntPage_lt (mirroring s.cart) (tbl := off / 0x400) (by omega)
  unfold ntWrite
  dsimp only
  split
  · next hlt =>
    have hm := h.memories
    exact ⟨h.ram, ⟨Cells.sized_write v hm.1 (by omega), hm.2, hm.3, hm.4, hm.5, hm.6⟩,
      ⟨h.raster.1, h.raster.2, h.raster.3, h.raster.4, h.raster.5⟩, h.storage, h.channels, h.masked⟩
  · next hge =>
    have hs := h.storage
    exact ⟨h.ram, h.memories, h.raster,
      ⟨hs.1, hs.2, hs.3, Cells.sized_write v hs.4 (by omega), hs.5, fun hd =>
        absurd (ntPage_two_pages (fun hm => hd (mirroringHdr_of_fourScreen hm)) (by omega)) hge⟩, h.channels, h.masked⟩

theorem inv_ppuWrite {s : State} (a : BitVec 14) (v : Byte) (h : s.Inv) : (ppuWrite s a v).Inv := by
  unfold ppuWrite
  dsimp only
  split
  · exact ⟨h.ram, h.memories, h.raster, storageOk_ppuChrWrite a v h.storage, h.channels, by
      show (ppuChrWrite s.cart a v).variant.Masked s.chip; rw [ppuChrWrite_variant]; exact h.masked⟩
  · split
    · exact inv_ntWrite v (by omega) h
    · have hm := h.memories
      exact ⟨h.ram, ⟨hm.1, Cells.sized_write _ hm.2 (palIndex_lt (by omega)), hm.3, hm.4, hm.5, hm.6⟩,
        ⟨h.raster.1, h.raster.2, h.raster.3, h.raster.4, h.raster.5⟩, h.storage, h.channels, h.masked⟩

/-- A change of the Picture Unit outside its memories, counters and sprite cells. -/
theorem inv_ppuCells {s : State} {p : Ppu} (h : s.Inv) (h1 : p.vram = s.ppu.vram) (h2 : p.palette = s.ppu.palette)
    (h3 : Cells.sized (width := 8) p.oam 0x100) (h4 : p.oam2 = s.ppu.oam2) (h5 : p.pixels = s.ppu.pixels)
    (h6 : p.frameOut = s.ppu.frameOut) (h7 : p.scanline = s.ppu.scanline) (h8 : p.dot = s.ppu.dot)
    (h9 : p.frame = s.ppu.frame) (h10 : p.oddFrame = s.ppu.oddFrame) (h11 : p.oam2Count = s.ppu.oam2Count)
    (h12 : p.sprites = s.ppu.sprites) : ({ s with ppu := p } : State).Inv := by
  have hm := h.memories
  have hr := h.raster
  refine ⟨h.ram, ⟨?_, ?_, h3, ?_, ?_, ?_⟩, ⟨?_, ?_, ?_, ?_, ?_⟩, h.storage, h.channels, h.masked⟩
  · rw [h1]; exact hm.vram
  · rw [h2]; exact hm.palette
  · rw [h4]; exact hm.oam2
  · rw [h5]; exact hm.pixels
  · rw [h6]; exact hm.frameOut
  · rw [h7]; exact hr.scanline
  · rw [h8]; exact hr.dot
  · rw [h10, h9]; exact hr.parity
  · rw [h11]; exact hr.count
  · rw [h12]; exact hr.units

theorem inv_ppuRegStore {s : State} (r : PpuReg) (v : Byte) (h0 : s.Inv) : (ppuRegStore s r v).Inv := by
  cases r
  · exact inv_ppuCells h0 rfl rfl h0.memories.oam rfl rfl rfl rfl rfl rfl rfl rfl rfl
  · exact inv_ppuCells h0 rfl rfl h0.memories.oam rfl rfl rfl rfl rfl rfl rfl rfl rfl
  · exact h0
  · exact inv_ppuCells h0 rfl rfl h0.memories.oam rfl rfl rfl rfl rfl rfl rfl rfl rfl
  · exact inv_ppuCells h0 rfl rfl (Cells.sized_write _ h0.memories.oam s.ppu.oamAddr.isLt) rfl rfl rfl rfl rfl rfl rfl rfl rfl
  · show ({ s with ppu := writeScroll s.ppu v } : State).Inv
    unfold writeScroll
    split <;> exact inv_ppuCells h0 rfl rfl h0.memories.oam rfl rfl rfl rfl rfl rfl rfl rfl rfl
  · show ({ s with ppu := writeAddress s.ppu v } : State).Inv
    unfold writeAddress
    split <;> exact inv_ppuCells h0 rfl rfl h0.memories.oam rfl rfl rfl rfl rfl rfl rfl rfl rfl
  · show (writeData s v).Inv
    unfold writeData
    have h1 := inv_ppuWrite (s.ppu.v.setWidth 14) v h0
    exact inv_ppuCells h1 rfl rfl h1.memories.oam rfl rfl rfl rfl rfl rfl rfl rfl rfl

theorem inv_ppuRegWrite {s : State} (r : PpuReg) (v : Byte) (h : s.Inv) : (ppuRegWrite s r v).Inv :=
  inv_ppuRegStore r v (inv_ppuCells h rfl rfl h.memories.oam rfl rfl rfl rfl rfl rfl rfl rfl rfl)

theorem inv_ioWrite {s : State} (a : Word) (v : Byte) (h : s.Inv) : (ioWrite s a v).Inv := by
  unfold ioWrite
  split
  · exact Inv_of_eq h rfl id id rfl fun k => channelsOk_channelWrite _ _ k
  · split
    · exact Inv_of_eq h rfl id id rfl id
    · split
      · exact Inv_of_eq h rfl id id rfl fun k => channelsOk_enableWrite _ k
      · split
        · exact Inv_of_eq h rfl id id rfl id
        · exact Inv_of_eq h rfl id id rfl fun k => channelsOk_seqWrite _ _ k

theorem storageOk_writePrgRam {c : Cartridge} {n : Nat} (v : Byte) (h : c.StorageOk) (h1 : ¬ n < 0x6000)
    (h2 : n < 0x8000) : (c.writePrgRam n v).StorageOk :=
  ⟨h.prg, h.chr, Cells.sized_write v h.prgRam (by unfold saveSize; omega), h.ntExtra, h.nonempty,
        h.absent⟩

theorem storageOk_cpuWrite {c : Cartridge} (p : ChipParams) (a : Word) (v : Byte) (h : c.StorageOk) :
    (cpuWrite c p a v).StorageOk := by
  unfold cpuWrite
  dsimp only
  split
  · exact h
  · split
    · exact h
    · next h1 =>
      split
      · next h2 => exact storageOk_writePrgRam v h h1 h2
      · exact h
  · next hv =>
    split
    · exact h
    · next h1 =>
      split
      · next h2 => exact storageOk_writePrgRam v h h1 h2
      · exact StorageOk_of_eq h rfl rfl rfl rfl rfl rfl (by simp [hv]) rfl
  · next hv =>
    split
    · exact h
    · next h1 =>
      split
      · next h2 =>
        split
        · exact storageOk_writePrgRam v h h1 h2
        · exact h
      · exact StorageOk_of_eq h rfl rfl rfl rfl rfl rfl (by simp [hv]) rfl

/-- A register write keeps every bank register under its mask (R585, R597). -/
theorem masked_write {p : ChipParams} {r : ScanlineRegs} (a : Word) (v : Byte) (h : (Variant.scanlineIrq r).Masked p) :
    (Variant.scanlineIrq (r.write p a v)).Masked p := by
  have hv : ∀ m : Byte, v &&& m &&& m = v &&& m := fun m => by rw [BitVec.and_assoc, BitVec.and_self]
  simp only [Variant.Masked, List.forall_mem_cons, List.not_mem_nil, false_imp_iff, implies_true, and_true] at h ⊢
  obtain ⟨⟨h0, h1, h2, h3, h4, h5⟩, h6, h7⟩ := h
  unfold ScanlineRegs.write
  dsimp only
  repeat' split
  all_goals simp [*]

theorem masked_cpuWrite {p : ChipParams} {c : Cartridge} (a : Word) (v : Byte) (h : c.variant.Masked p) :
    (cpuWrite c p a v).variant.Masked p := by
  unfold cpuWrite
  dsimp only
  split
  · exact h
  · split
    · exact h
    · split <;> exact h
  · split
    · exact h
    · split
      · exact h
      · show v &&& p.bankMaskSimple &&& p.bankMaskSimple = v &&& p.bankMaskSimple
        rw [BitVec.and_assoc, BitVec.and_self]
  · next r hv =>
    split
    · exact h
    · split
      · split <;> exact h
      · rw [hv] at h; exact masked_write a v h

/-- A bus write keeps the invariant. -/
theorem inv_busWrite {s : State} (a : Word) (v : Byte) (h : s.Inv) : (busWrite s a v).Inv := by
  have h0 : ({ s with openBus := v } : State).Inv := Inv_of_eq h rfl id id rfl id
  unfold busWrite
  dsimp only
  split
  · exact ⟨Cells.sized_write v h.ram (Nat.mod_lt _ (by decide)), h.memories, h.raster, h.storage, h.channels, h.masked⟩
  · exact inv_ppuRegWrite _ _ h0
  · exact inv_ioWrite _ _ h0
  · exact ⟨h.ram, h.memories, h.raster, storageOk_cpuWrite s.chip a v h.storage, h.channels,
      masked_cpuWrite a v h.masked⟩

theorem inv_wr {s : State} (a : Word) (v : Byte) (h : s.Inv) : (wr s a v).Inv := by
  unfold wr; exact inv_tick (inv_busWrite a v h)

end Sys2Proof.Machine
end

