-- ==== Sys2Proof/Laws/PerInstr.lean ====
section
/-! SUPPORT. Laws stated per instruction. EncodedLength: an instruction's encoding has the length that its opcode byte
determines (30_encoding.md R140), and the opcode byte alone selects its constructor's row. -/

namespace Sys2Proof.Laws.EncodedLength

/-- The encoding is not empty and has exactly the length that the decoder takes from its first byte (R140). -/
def Statement (i : Instr) : Prop :=
  ∃ op rest, encode i = op :: rest ∧ (encode i).length = lengthOf op

theorem ldaImm (imm : Byte) : Statement (.ldaImm imm) := ⟨_, _, rfl, rfl⟩
theorem ldaZp (z : Byte) : Statement (.ldaZp z) := ⟨_, _, rfl, rfl⟩
theorem ldaZpx (z : Byte) : Statement (.ldaZpx z) := ⟨_, _, rfl, rfl⟩
theorem ldaAbs (w : Word) : Statement (.ldaAbs w) := ⟨_, _, rfl, rfl⟩
theorem ldaAbx (w : Word) : Statement (.ldaAbx w) := ⟨_, _, rfl, rfl⟩
theorem ldaAby (w : Word) : Statement (.ldaAby w) := ⟨_, _, rfl, rfl⟩
theorem ldaIzx (z : Byte) : Statement (.ldaIzx z) := ⟨_, _, rfl, rfl⟩
theorem ldaIzy (z : Byte) : Statement (.ldaIzy z) := ⟨_, _, rfl, rfl⟩
theorem ldxImm (imm : Byte) : Statement (.ldxImm imm) := ⟨_, _, rfl, rfl⟩
theorem ldxZp (z : Byte) : Statement (.ldxZp z) := ⟨_, _, rfl, rfl⟩
theorem ldxZpy (z : Byte) : Statement (.ldxZpy z) := ⟨_, _, rfl, rfl⟩
theorem ldxAbs (w : Word) : Statement (.ldxAbs w) := ⟨_, _, rfl, rfl⟩
theorem ldxAby (w : Word) : Statement (.ldxAby w) := ⟨_, _, rfl, rfl⟩
theorem ldyImm (imm : Byte) : Statement (.ldyImm imm) := ⟨_, _, rfl, rfl⟩
theorem ldyZp (z : Byte) : Statement (.ldyZp z) := ⟨_, _, rfl, rfl⟩
theorem ldyZpx (z : Byte) : Statement (.ldyZpx z) := ⟨_, _, rfl, rfl⟩
theorem ldyAbs (w : Word) : Statement (.ldyAbs w) := ⟨_, _, rfl, rfl⟩
theorem ldyAbx (w : Word) : Statement (.ldyAbx w) := ⟨_, _, rfl, rfl⟩
theorem staZp (z : Byte) : Statement (.staZp z) := ⟨_, _, rfl, rfl⟩
theorem staZpx (z : Byte) : Statement (.staZpx z) := ⟨_, _, rfl, rfl⟩
theorem staAbs (w : Word) : Statement (.staAbs w) := ⟨_, _, rfl, rfl⟩
theorem staAbx (w : Word) : Statement (.staAbx w) := ⟨_, _, rfl, rfl⟩
theorem staAby (w : Word) : Statement (.staAby w) := ⟨_, _, rfl, rfl⟩
theorem staIzx (z : Byte) : Statement (.staIzx z) := ⟨_, _, rfl, rfl⟩
theorem staIzy (z : Byte) : Statement (.staIzy z) := ⟨_, _, rfl, rfl⟩
theorem stxZp (z : Byte) : Statement (.stxZp z) := ⟨_, _, rfl, rfl⟩
theorem stxZpy (z : Byte) : Statement (.stxZpy z) := ⟨_, _, rfl, rfl⟩
theorem stxAbs (w : Word) : Statement (.stxAbs w) := ⟨_, _, rfl, rfl⟩
theorem styZp (z : Byte) : Statement (.styZp z) := ⟨_, _, rfl, rfl⟩
theorem styZpx (z : Byte) : Statement (.styZpx z) := ⟨_, _, rfl, rfl⟩
theorem styAbs (w : Word) : Statement (.styAbs w) := ⟨_, _, rfl, rfl⟩
theorem tax : Statement .tax := ⟨_, _, rfl, rfl⟩
theorem tay : Statement .tay := ⟨_, _, rfl, rfl⟩
theorem txa : Statement .txa := ⟨_, _, rfl, rfl⟩
theorem tya : Statement .tya := ⟨_, _, rfl, rfl⟩
theorem tsx : Statement .tsx := ⟨_, _, rfl, rfl⟩
theorem txs : Statement .txs := ⟨_, _, rfl, rfl⟩
theorem adcImm (imm : Byte) : Statement (.adcImm imm) := ⟨_, _, rfl, rfl⟩
theorem adcZp (z : Byte) : Statement (.adcZp z) := ⟨_, _, rfl, rfl⟩
theorem adcZpx (z : Byte) : Statement (.adcZpx z) := ⟨_, _, rfl, rfl⟩
theorem adcAbs (w : Word) : Statement (.adcAbs w) := ⟨_, _, rfl, rfl⟩
theorem adcAbx (w : Word) : Statement (.adcAbx w) := ⟨_, _, rfl, rfl⟩
theorem adcAby (w : Word) : Statement (.adcAby w) := ⟨_, _, rfl, rfl⟩
theorem adcIzx (z : Byte) : Statement (.adcIzx z) := ⟨_, _, rfl, rfl⟩
theorem adcIzy (z : Byte) : Statement (.adcIzy z) := ⟨_, _, rfl, rfl⟩
theorem sbcImm (imm : Byte) : Statement (.sbcImm imm) := ⟨_, _, rfl, rfl⟩
theorem sbcZp (z : Byte) : Statement (.sbcZp z) := ⟨_, _, rfl, rfl⟩
theorem sbcZpx (z : Byte) : Statement (.sbcZpx z) := ⟨_, _, rfl, rfl⟩
theorem sbcAbs (w : Word) : Statement (.sbcAbs w) := ⟨_, _, rfl, rfl⟩
theorem sbcAbx (w : Word) : Statement (.sbcAbx w) := ⟨_, _, rfl, rfl⟩
theorem sbcAby (w : Word) : Statement (.sbcAby w) := ⟨_, _, rfl, rfl⟩
theorem sbcIzx (z : Byte) : Statement (.sbcIzx z) := ⟨_, _, rfl, rfl⟩
theorem sbcIzy (z : Byte) : Statement (.sbcIzy z) := ⟨_, _, rfl, rfl⟩
theorem andImm (imm : Byte) : Statement (.andImm imm) := ⟨_, _, rfl, rfl⟩
theorem andZp (z : Byte) : Statement (.andZp z) := ⟨_, _, rfl, rfl⟩
theorem andZpx (z : Byte) : Statement (.andZpx z) := ⟨_, _, rfl, rfl⟩
theorem andAbs (w : Word) : Statement (.andAbs w) := ⟨_, _, rfl, rfl⟩
theorem andAbx (w : Word) : Statement (.andAbx w) := ⟨_, _, rfl, rfl⟩
theorem andAby (w : Word) : Statement (.andAby w) := ⟨_, _, rfl, rfl⟩
theorem andIzx (z : Byte) : Statement (.andIzx z) := ⟨_, _, rfl, rfl⟩
theorem andIzy (z : Byte) : Statement (.andIzy z) := ⟨_, _, rfl, rfl⟩
theorem oraImm (imm : Byte) : Statement (.oraImm imm) := ⟨_, _, rfl, rfl⟩
theorem oraZp (z : Byte) : Statement (.oraZp z) := ⟨_, _, rfl, rfl⟩
theorem oraZpx (z : Byte) : Statement (.oraZpx z) := ⟨_, _, rfl, rfl⟩
theorem oraAbs (w : Word) : Statement (.oraAbs w) := ⟨_, _, rfl, rfl⟩
theorem oraAbx (w : Word) : Statement (.oraAbx w) := ⟨_, _, rfl, rfl⟩
theorem oraAby (w : Word) : Statement (.oraAby w) := ⟨_, _, rfl, rfl⟩
theorem oraIzx (z : Byte) : Statement (.oraIzx z) := ⟨_, _, rfl, rfl⟩
theorem oraIzy (z : Byte) : Statement (.oraIzy z) := ⟨_, _, rfl, rfl⟩
theorem eorImm (imm : Byte) : Statement (.eorImm imm) := ⟨_, _, rfl, rfl⟩
theorem eorZp (z : Byte) : Statement (.eorZp z) := ⟨_, _, rfl, rfl⟩
theorem eorZpx (z : Byte) : Statement (.eorZpx z) := ⟨_, _, rfl, rfl⟩
theorem eorAbs (w : Word) : Statement (.eorAbs w) := ⟨_, _, rfl, rfl⟩
theorem eorAbx (w : Word) : Statement (.eorAbx w) := ⟨_, _, rfl, rfl⟩
theorem eorAby (w : Word) : Statement (.eorAby w) := ⟨_, _, rfl, rfl⟩
theorem eorIzx (z : Byte) : Statement (.eorIzx z) := ⟨_, _, rfl, rfl⟩
theorem eorIzy (z : Byte) : Statement (.eorIzy z) := ⟨_, _, rfl, rfl⟩
theorem bitZp (z : Byte) : Statement (.bitZp z) := ⟨_, _, rfl, rfl⟩
theorem bitAbs (w : Word) : Statement (.bitAbs w) := ⟨_, _, rfl, rfl⟩
theorem cmpImm (imm : Byte) : Statement (.cmpImm imm) := ⟨_, _, rfl, rfl⟩
theorem cmpZp (z : Byte) : Statement (.cmpZp z) := ⟨_, _, rfl, rfl⟩
theorem cmpZpx (z : Byte) : Statement (.cmpZpx z) := ⟨_, _, rfl, rfl⟩
theorem cmpAbs (w : Word) : Statement (.cmpAbs w) := ⟨_, _, rfl, rfl⟩
theorem cmpAbx (w : Word) : Statement (.cmpAbx w) := ⟨_, _, rfl, rfl⟩
theorem cmpAby (w : Word) : Statement (.cmpAby w) := ⟨_, _, rfl, rfl⟩
theorem cmpIzx (z : Byte) : Statement (.cmpIzx z) := ⟨_, _, rfl, rfl⟩
theorem cmpIzy (z : Byte) : Statement (.cmpIzy z) := ⟨_, _, rfl, rfl⟩
theorem cpxImm (imm : Byte) : Statement (.cpxImm imm) := ⟨_, _, rfl, rfl⟩
theorem cpxZp (z : Byte) : Statement (.cpxZp z) := ⟨_, _, rfl, rfl⟩
theorem cpxAbs (w : Word) : Statement (.cpxAbs w) := ⟨_, _, rfl, rfl⟩
theorem cpyImm (imm : Byte) : Statement (.cpyImm imm) := ⟨_, _, rfl, rfl⟩
theorem cpyZp (z : Byte) : Statement (.cpyZp z) := ⟨_, _, rfl, rfl⟩
theorem cpyAbs (w : Word) : Statement (.cpyAbs w) := ⟨_, _, rfl, rfl⟩
theorem incZp (z : Byte) : Statement (.incZp z) := ⟨_, _, rfl, rfl⟩
theorem incZpx (z : Byte) : Statement (.incZpx z) := ⟨_, _, rfl, rfl⟩
theorem incAbs (w : Word) : Statement (.incAbs w) := ⟨_, _, rfl, rfl⟩
theorem incAbx (w : Word) : Statement (.incAbx w) := ⟨_, _, rfl, rfl⟩
theorem decZp (z : Byte) : Statement (.decZp z) := ⟨_, _, rfl, rfl⟩
theorem decZpx (z : Byte) : Statement (.decZpx z) := ⟨_, _, rfl, rfl⟩
theorem decAbs (w : Word) : Statement (.decAbs w) := ⟨_, _, rfl, rfl⟩
theorem decAbx (w : Word) : Statement (.decAbx w) := ⟨_, _, rfl, rfl⟩
theorem inx : Statement .inx := ⟨_, _, rfl, rfl⟩
theorem iny : Statement .iny := ⟨_, _, rfl, rfl⟩
theorem dex : Statement .dex := ⟨_, _, rfl, rfl⟩
theorem dey : Statement .dey := ⟨_, _, rfl, rfl⟩
theorem aslAcc : Statement .aslAcc := ⟨_, _, rfl, rfl⟩
theorem aslZp (z : Byte) : Statement (.aslZp z) := ⟨_, _, rfl, rfl⟩
theorem aslZpx (z : Byte) : Statement (.aslZpx z) := ⟨_, _, rfl, rfl⟩
theorem aslAbs (w : Word) : Statement (.aslAbs w) := ⟨_, _, rfl, rfl⟩
theorem aslAbx (w : Word) : Statement (.aslAbx w) := ⟨_, _, rfl, rfl⟩
theorem lsrAcc : Statement .lsrAcc := ⟨_, _, rfl, rfl⟩
theorem lsrZp (z : Byte) : Statement (.lsrZp z) := ⟨_, _, rfl, rfl⟩
theorem lsrZpx (z : Byte) : Statement (.lsrZpx z) := ⟨_, _, rfl, rfl⟩
theorem lsrAbs (w : Word) : Statement (.lsrAbs w) := ⟨_, _, rfl, rfl⟩
theorem lsrAbx (w : Word) : Statement (.lsrAbx w) := ⟨_, _, rfl, rfl⟩
theorem rolAcc : Statement .rolAcc := ⟨_, _, rfl, rfl⟩
theorem rolZp (z : Byte) : Statement (.rolZp z) := ⟨_, _, rfl, rfl⟩
theorem rolZpx (z : Byte) : Statement (.rolZpx z) := ⟨_, _, rfl, rfl⟩
theorem rolAbs (w : Word) : Statement (.rolAbs w) := ⟨_, _, rfl, rfl⟩
theorem rolAbx (w : Word) : Statement (.rolAbx w) := ⟨_, _, rfl, rfl⟩
theorem rorAcc : Statement .rorAcc := ⟨_, _, rfl, rfl⟩
theorem rorZp (z : Byte) : Statement (.rorZp z) := ⟨_, _, rfl, rfl⟩
theorem rorZpx (z : Byte) : Statement (.rorZpx z) := ⟨_, _, rfl, rfl⟩
theorem rorAbs (w : Word) : Statement (.rorAbs w) := ⟨_, _, rfl, rfl⟩
theorem rorAbx (w : Word) : Statement (.rorAbx w) := ⟨_, _, rfl, rfl⟩
theorem jmpAbs (w : Word) : Statement (.jmpAbs w) := ⟨_, _, rfl, rfl⟩
theorem jmpInd (ptr : Word) : Statement (.jmpInd ptr) := ⟨_, _, rfl, rfl⟩
theorem jsrAbs (w : Word) : Statement (.jsrAbs w) := ⟨_, _, rfl, rfl⟩
theorem rts : Statement .rts := ⟨_, _, rfl, rfl⟩
theorem bccRel (off : Byte) : Statement (.bccRel off) := ⟨_, _, rfl, rfl⟩
theorem bcsRel (off : Byte) : Statement (.bcsRel off) := ⟨_, _, rfl, rfl⟩
theorem beqRel (off : Byte) : Statement (.beqRel off) := ⟨_, _, rfl, rfl⟩
theorem bneRel (off : Byte) : Statement (.bneRel off) := ⟨_, _, rfl, rfl⟩
theorem bmiRel (off : Byte) : Statement (.bmiRel off) := ⟨_, _, rfl, rfl⟩
theorem bplRel (off : Byte) : Statement (.bplRel off) := ⟨_, _, rfl, rfl⟩
theorem bvcRel (off : Byte) : Statement (.bvcRel off) := ⟨_, _, rfl, rfl⟩
theorem bvsRel (off : Byte) : Statement (.bvsRel off) := ⟨_, _, rfl, rfl⟩
theorem brk : Statement .brk := ⟨_, _, rfl, rfl⟩
theorem rti : Statement .rti := ⟨_, _, rfl, rfl⟩
theorem pha : Statement .pha := ⟨_, _, rfl, rfl⟩
theorem php : Statement .php := ⟨_, _, rfl, rfl⟩
theorem pla : Statement .pla := ⟨_, _, rfl, rfl⟩
theorem plp : Statement .plp := ⟨_, _, rfl, rfl⟩
theorem clc : Statement .clc := ⟨_, _, rfl, rfl⟩
theorem sec : Statement .sec := ⟨_, _, rfl, rfl⟩
theorem cli : Statement .cli := ⟨_, _, rfl, rfl⟩
theorem sei : Statement .sei := ⟨_, _, rfl, rfl⟩
theorem cld : Statement .cld := ⟨_, _, rfl, rfl⟩
theorem sed : Statement .sed := ⟨_, _, rfl, rfl⟩
theorem clv : Statement .clv := ⟨_, _, rfl, rfl⟩
theorem nop : Statement .nop := ⟨_, _, rfl, rfl⟩
theorem sloZp (z : Byte) : Statement (.sloZp z) := ⟨_, _, rfl, rfl⟩
theorem sloZpx (z : Byte) : Statement (.sloZpx z) := ⟨_, _, rfl, rfl⟩
theorem sloAbs (w : Word) : Statement (.sloAbs w) := ⟨_, _, rfl, rfl⟩
theorem sloAbx (w : Word) : Statement (.sloAbx w) := ⟨_, _, rfl, rfl⟩
theorem sloAby (w : Word) : Statement (.sloAby w) := ⟨_, _, rfl, rfl⟩
theorem sloIzx (z : Byte) : Statement (.sloIzx z) := ⟨_, _, rfl, rfl⟩
theorem sloIzy (z : Byte) : Statement (.sloIzy z) := ⟨_, _, rfl, rfl⟩
theorem rlaZp (z : Byte) : Statement (.rlaZp z) := ⟨_, _, rfl, rfl⟩
theorem rlaZpx (z : Byte) : Statement (.rlaZpx z) := ⟨_, _, rfl, rfl⟩
theorem rlaAbs (w : Word) : Statement (.rlaAbs w) := ⟨_, _, rfl, rfl⟩
theorem rlaAbx (w : Word) : Statement (.rlaAbx w) := ⟨_, _, rfl, rfl⟩
theorem rlaAby (w : Word) : Statement (.rlaAby w) := ⟨_, _, rfl, rfl⟩
theorem rlaIzx (z : Byte) : Statement (.rlaIzx z) := ⟨_, _, rfl, rfl⟩
theorem rlaIzy (z : Byte) : Statement (.rlaIzy z) := ⟨_, _, rfl, rfl⟩
theorem sreZp (z : Byte) : Statement (.sreZp z) := ⟨_, _, rfl, rfl⟩
theorem sreZpx (z : Byte) : Statement (.sreZpx z) := ⟨_, _, rfl, rfl⟩
theorem sreAbs (w : Word) : Statement (.sreAbs w) := ⟨_, _, rfl, rfl⟩
theorem sreAbx (w : Word) : Statement (.sreAbx w) := ⟨_, _, rfl, rfl⟩
theorem sreAby (w : Word) : Statement (.sreAby w) := ⟨_, _, rfl, rfl⟩
theorem sreIzx (z : Byte) : Statement (.sreIzx z) := ⟨_, _, rfl, rfl⟩
theorem sreIzy (z : Byte) : Statement (.sreIzy z) := ⟨_, _, rfl, rfl⟩
theorem rraZp (z : Byte) : Statement (.rraZp z) := ⟨_, _, rfl, rfl⟩
theorem rraZpx (z : Byte) : Statement (.rraZpx z) := ⟨_, _, rfl, rfl⟩
theorem rraAbs (w : Word) : Statement (.rraAbs w) := ⟨_, _, rfl, rfl⟩
theorem rraAbx (w : Word) : Statement (.rraAbx w) := ⟨_, _, rfl, rfl⟩
theorem rraAby (w : Word) : Statement (.rraAby w) := ⟨_, _, rfl, rfl⟩
theorem rraIzx (z : Byte) : Statement (.rraIzx z) := ⟨_, _, rfl, rfl⟩
theorem rraIzy (z : Byte) : Statement (.rraIzy z) := ⟨_, _, rfl, rfl⟩
theorem saxZp (z : Byte) : Statement (.saxZp z) := ⟨_, _, rfl, rfl⟩
theorem saxZpy (z : Byte) : Statement (.saxZpy z) := ⟨_, _, rfl, rfl⟩
theorem saxAbs (w : Word) : Statement (.saxAbs w) := ⟨_, _, rfl, rfl⟩
theorem saxIzx (z : Byte) : Statement (.saxIzx z) := ⟨_, _, rfl, rfl⟩
theorem laxZp (z : Byte) : Statement (.laxZp z) := ⟨_, _, rfl, rfl⟩
theorem laxZpy (z : Byte) : Statement (.laxZpy z) := ⟨_, _, rfl, rfl⟩
theorem laxAbs (w : Word) : Statement (.laxAbs w) := ⟨_, _, rfl, rfl⟩
theorem laxAby (w : Word) : Statement (.laxAby w) := ⟨_, _, rfl, rfl⟩
theorem laxIzx (z : Byte) : Statement (.laxIzx z) := ⟨_, _, rfl, rfl⟩
theorem laxIzy (z : Byte) : Statement (.laxIzy z) := ⟨_, _, rfl, rfl⟩
theorem dcpZp (z : Byte) : Statement (.dcpZp z) := ⟨_, _, rfl, rfl⟩
theorem dcpZpx (z : Byte) : Statement (.dcpZpx z) := ⟨_, _, rfl, rfl⟩
theorem dcpAbs (w : Word) : Statement (.dcpAbs w) := ⟨_, _, rfl, rfl⟩
theorem dcpAbx (w : Word) : Statement (.dcpAbx w) := ⟨_, _, rfl, rfl⟩
theorem dcpAby (w : Word) : Statement (.dcpAby w) := ⟨_, _, rfl, rfl⟩
theorem dcpIzx (z : Byte) : Statement (.dcpIzx z) := ⟨_, _, rfl, rfl⟩
theorem dcpIzy (z : Byte) : Statement (.dcpIzy z) := ⟨_, _, rfl, rfl⟩
theorem iscZp (z : Byte) : Statement (.iscZp z) := ⟨_, _, rfl, rfl⟩
theorem iscZpx (z : Byte) : Statement (.iscZpx z) := ⟨_, _, rfl, rfl⟩
theorem iscAbs (w : Word) : Statement (.iscAbs w) := ⟨_, _, rfl, rfl⟩
theorem iscAbx (w : Word) : Statement (.iscAbx w) := ⟨_, _, rfl, rfl⟩
theorem iscAby (w : Word) : Statement (.iscAby w) := ⟨_, _, rfl, rfl⟩
theorem iscIzx (z : Byte) : Statement (.iscIzx z) := ⟨_, _, rfl, rfl⟩
theorem iscIzy (z : Byte) : Statement (.iscIzy z) := ⟨_, _, rfl, rfl⟩
theorem ancImm0B (imm : Byte) : Statement (.ancImm0B imm) := ⟨_, _, rfl, rfl⟩
theorem ancImm2B (imm : Byte) : Statement (.ancImm2B imm) := ⟨_, _, rfl, rfl⟩
theorem alrImm (imm : Byte) : Statement (.alrImm imm) := ⟨_, _, rfl, rfl⟩
theorem arrImm (imm : Byte) : Statement (.arrImm imm) := ⟨_, _, rfl, rfl⟩
theorem axsImm (imm : Byte) : Statement (.axsImm imm) := ⟨_, _, rfl, rfl⟩
theorem sbcImmEB (imm : Byte) : Statement (.sbcImmEB imm) := ⟨_, _, rfl, rfl⟩
theorem nopImp1A : Statement .nopImp1A := ⟨_, _, rfl, rfl⟩
theorem nopImp3A : Statement .nopImp3A := ⟨_, _, rfl, rfl⟩
theorem nopImp5A : Statement .nopImp5A := ⟨_, _, rfl, rfl⟩
theorem nopImp7A : Statement .nopImp7A := ⟨_, _, rfl, rfl⟩
theorem nopImpDA : Statement .nopImpDA := ⟨_, _, rfl, rfl⟩
theorem nopImpFA : Statement .nopImpFA := ⟨_, _, rfl, rfl⟩
theorem nopImm80 (imm : Byte) : Statement (.nopImm80 imm) := ⟨_, _, rfl, rfl⟩
theorem nopImm82 (imm : Byte) : Statement (.nopImm82 imm) := ⟨_, _, rfl, rfl⟩
theorem nopImm89 (imm : Byte) : Statement (.nopImm89 imm) := ⟨_, _, rfl, rfl⟩
theorem nopImmC2 (imm : Byte) : Statement (.nopImmC2 imm) := ⟨_, _, rfl, rfl⟩
theorem nopImmE2 (imm : Byte) : Statement (.nopImmE2 imm) := ⟨_, _, rfl, rfl⟩
theorem nopZp04 (z : Byte) : Statement (.nopZp04 z) := ⟨_, _, rfl, rfl⟩
theorem nopZp44 (z : Byte) : Statement (.nopZp44 z) := ⟨_, _, rfl, rfl⟩
theorem nopZp64 (z : Byte) : Statement (.nopZp64 z) := ⟨_, _, rfl, rfl⟩
theorem nopZpx14 (z : Byte) : Statement (.nopZpx14 z) := ⟨_, _, rfl, rfl⟩
theorem nopZpx34 (z : Byte) : Statement (.nopZpx34 z) := ⟨_, _, rfl, rfl⟩
theorem nopZpx54 (z : Byte) : Statement (.nopZpx54 z) := ⟨_, _, rfl, rfl⟩
theorem nopZpx74 (z : Byte) : Statement (.nopZpx74 z) := ⟨_, _, rfl, rfl⟩
theorem nopZpxD4 (z : Byte) : Statement (.nopZpxD4 z) := ⟨_, _, rfl, rfl⟩
theorem nopZpxF4 (z : Byte) : Statement (.nopZpxF4 z) := ⟨_, _, rfl, rfl⟩
theorem nopAbs0C (w : Word) : Statement (.nopAbs0C w) := ⟨_, _, rfl, rfl⟩
theorem nopAbx1C (w : Word) : Statement (.nopAbx1C w) := ⟨_, _, rfl, rfl⟩
theorem nopAbx3C (w : Word) : Statement (.nopAbx3C w) := ⟨_, _, rfl, rfl⟩
theorem nopAbx5C (w : Word) : Statement (.nopAbx5C w) := ⟨_, _, rfl, rfl⟩
theorem nopAbx7C (w : Word) : Statement (.nopAbx7C w) := ⟨_, _, rfl, rfl⟩
theorem nopAbxDC (w : Word) : Statement (.nopAbxDC w) := ⟨_, _, rfl, rfl⟩
theorem nopAbxFC (w : Word) : Statement (.nopAbxFC w) := ⟨_, _, rfl, rfl⟩
theorem aneImm (imm : Byte) : Statement (.aneImm imm) := ⟨_, _, rfl, rfl⟩
theorem lxaImm (imm : Byte) : Statement (.lxaImm imm) := ⟨_, _, rfl, rfl⟩
theorem shaAby (w : Word) : Statement (.shaAby w) := ⟨_, _, rfl, rfl⟩
theorem shaIzy (z : Byte) : Statement (.shaIzy z) := ⟨_, _, rfl, rfl⟩
theorem shxAby (w : Word) : Statement (.shxAby w) := ⟨_, _, rfl, rfl⟩
theorem shyAbx (w : Word) : Statement (.shyAbx w) := ⟨_, _, rfl, rfl⟩
theorem tasAby (w : Word) : Statement (.tasAby w) := ⟨_, _, rfl, rfl⟩
theorem lasAby (w : Word) : Statement (.lasAby w) := ⟨_, _, rfl, rfl⟩
theorem jam02 : Statement .jam02 := ⟨_, _, rfl, rfl⟩
theorem jam12 : Statement .jam12 := ⟨_, _, rfl, rfl⟩
theorem jam22 : Statement .jam22 := ⟨_, _, rfl, rfl⟩
theorem jam32 : Statement .jam32 := ⟨_, _, rfl, rfl⟩
theorem jam42 : Statement .jam42 := ⟨_, _, rfl, rfl⟩
theorem jam52 : Statement .jam52 := ⟨_, _, rfl, rfl⟩
theorem jam62 : Statement .jam62 := ⟨_, _, rfl, rfl⟩
theorem jam72 : Statement .jam72 := ⟨_, _, rfl, rfl⟩
theorem jam92 : Statement .jam92 := ⟨_, _, rfl, rfl⟩
theorem jamB2 : Statement .jamB2 := ⟨_, _, rfl, rfl⟩
theorem jamD2 : Statement .jamD2 := ⟨_, _, rfl, rfl⟩
theorem jamF2 : Statement .jamF2 := ⟨_, _, rfl, rfl⟩

end Sys2Proof.Laws.EncodedLength
end

