-- ==== Sys2Proof/Laws/Stored.lean ====
section
/-! SUPPORT. What one bus write leaves (`Stored`, Safety.lean), and how that composes with read cycles and with a second
write to the same address. -/

namespace Sys2Proof.Machine

theorem Cells.read_write_if {width : Nat} {m : Cells width} (hm : Cells.wf m) (P : Prop) [Decidable P] (j : Nat)
    (v : BitVec width) (k : Nat) :
    Cells.read (if P then Cells.write m j v else m) k = if P ∧ k = j then v else Cells.read m k := by
  by_cases h : P
  · rw [if_pos h, Cells.read_write hm]; by_cases g : k = j <;> simp [h, g]
  · simp [h]

theorem acceptsSave_congr {c c' : Cartridge} (h : c'.variant.banks = c.variant.banks) (a : Word) :
    c'.acceptsSave a = c.acceptsSave a := by
  unfold Cartridge.acceptsSave
  cases hc : c.variant <;> cases hc' : c'.variant <;> simp_all [Variant.banks]

/-- The mapper's side of a write: save memory where it accepts the write, its own registers above 0x8000, nothing else. -/
theorem cpuWrite_eq (c : Cartridge) (p : ChipParams) (a : Word) (v : Byte) :
    ∃ var, cpuWrite c p a v =
        { c with
          variant := var
          prgRam := if c.acceptsSave a then Cells.write c.prgRam (a.toNat - 0x6000) v else c.prgRam } ∧
      (a.toNat < 0x8000 → var = c.variant) := by
  unfold cpuWrite Cartridge.acceptsSave
  cases hv : c.variant with
  | empty => exact ⟨.empty, by simp [← hv], fun _ => rfl⟩
  | fixed =>
    refine ⟨.fixed, ?_, fun _ => rfl⟩
    dsimp only
    split
    · next h => simp [← hv, show ¬ 0x6000 ≤ a.toNat by omega]
    · split
      · next h h' => simp [← hv, show 0x6000 ≤ a.toNat by omega, h', Cartridge.writePrgRam]
      · next h h' => simp [← hv, h']
  | simpleBanked bank =>
    dsimp only
    split
    · next h => exact ⟨.simpleBanked bank, by simp [← hv, show ¬ 0x6000 ≤ a.toNat by omega], fun _ => rfl⟩
    · split
      · next h h' =>
        exact ⟨.simpleBanked bank, by simp [← hv, show 0x6000 ≤ a.toNat by omega, h', Cartridge.writePrgRam], fun _ => rfl⟩
      · next h h' =>
        exact ⟨.simpleBanked (v &&& p.bankMaskSimple), by simp [h'], fun g => absurd g h'⟩
  | scanlineIrq r =>
    dsimp only
    split
    · next h => exact ⟨.scanlineIrq r, by simp [← hv, show ¬ 0x6000 ≤ a.toNat by omega], fun _ => rfl⟩
    · split
      · next h h' =>
        refine ⟨.scanlineIrq r, ?_, fun _ => rfl⟩
        have h6 : 0x6000 ≤ a.toNat := by omega
        by_cases g : (r.ramEnable && !r.ramProtect) = true
        · simp [← hv, h6, h', Cartridge.writePrgRam, g]
        · simp only [Bool.not_eq_true] at g
          simp [← hv, h6, h', g]
      · next h h' => exact ⟨.scanlineIrq (r.write p a v), by simp [h'], fun g => absurd g h'⟩

/-- What a write of the picture-unit window leaves. -/
structure PictureWrite (r : PpuReg) (s t : State) : Prop where
  ram      : t.ram = s.ram
  oam      : r ≠ .oamData → t.ppu.oam = s.ppu.oam
  video    : r ≠ .data →
    t.ppu.vram = s.ppu.vram ∧ t.ppu.palette = s.ppu.palette ∧ t.cart.chr = s.cart.chr ∧ t.cart.ntExtra = s.cart.ntExtra
  apu      : t.apu = s.apu
  strobe   : t.strobe = s.strobe
  pads     : t.pad1 = s.pad1 ∧ t.pad2 = s.pad2
  variant  : t.cart.variant = s.cart.variant
  prgRam   : t.cart.prgRam = s.cart.prgRam
  storage  : t.cart.prg = s.cart.prg ∧ t.cart.prgLen = s.cart.prgLen ∧ t.cart.chrLen = s.cart.chrLen ∧
    t.cart.chrIsRam = s.cart.chrIsRam
  identity : t.cart.mirroringHdr = s.cart.mirroringHdr ∧ t.cart.mapperId = s.cart.mapperId ∧
    t.cart.hasBattery = s.cart.hasBattery ∧ t.chip = s.chip

theorem pictureWrite_ppuWrite (s : State) (a : BitVec 14) (v : Byte) :
    PictureWrite .data s (ppuWrite s a v) ∧ (ppuWrite s a v).ppu.oam = s.ppu.oam := by
  unfold ppuWrite
  dsimp only
  split
  · unfold ppuChrWrite
    split
    · exact ⟨⟨rfl, fun _ => rfl, fun h => absurd rfl h, rfl, rfl, ⟨rfl, rfl⟩, rfl, rfl, ⟨rfl, rfl, rfl, rfl⟩,
        ⟨rfl, rfl, rfl, rfl⟩⟩, rfl⟩
    · split <;> exact ⟨⟨rfl, fun _ => rfl, fun h => absurd rfl h, rfl, rfl, ⟨rfl, rfl⟩, rfl, rfl, ⟨rfl, rfl, rfl, rfl⟩,
        ⟨rfl, rfl, rfl, rfl⟩⟩, rfl⟩
  · split
    · unfold ntWrite
      dsimp only
      split <;> exact ⟨⟨rfl, fun _ => rfl, fun h => absurd rfl h, rfl, rfl, ⟨rfl, rfl⟩, rfl, rfl, ⟨rfl, rfl, rfl, rfl⟩,
        ⟨rfl, rfl, rfl, rfl⟩⟩, rfl⟩
    · exact ⟨⟨rfl, fun _ => rfl, fun h => absurd rfl h, rfl, rfl, ⟨rfl, rfl⟩, rfl, rfl, ⟨rfl, rfl, rfl, rfl⟩,
        ⟨rfl, rfl, rfl, rfl⟩⟩, rfl⟩

theorem pictureWrite_ppuRegWrite (s : State) (r : PpuReg) (v : Byte) : PictureWrite r s (ppuRegWrite s r v) := by
  have simple : ∀ p : Ppu, p.vram = s.ppu.vram → p.palette = s.ppu.palette → (r ≠ .oamData → p.oam = s.ppu.oam) →
      PictureWrite r s { s with ppu := p } := fun p h1 h2 h3 =>
    ⟨rfl, h3, fun _ => ⟨h1, h2, rfl, rfl⟩, rfl, rfl, ⟨rfl, rfl⟩, rfl, rfl, ⟨rfl, rfl, rfl, rfl⟩, ⟨rfl, rfl, rfl, rfl⟩⟩
  cases r with
  | control => exact simple _ rfl rfl fun _ => rfl
  | mask => exact simple _ rfl rfl fun _ => rfl
  | status => exact simple _ rfl rfl fun _ => rfl
  | oamAddress => exact simple _ rfl rfl fun _ => rfl
  | oamData => exact simple _ rfl rfl fun h => absurd rfl h
  | scroll =>
    refine simple (writeScroll { s.ppu with ioLatch := v } v) ?_ ?_ fun _ => ?_ <;> unfold writeScroll <;> split <;> rfl
  | address =>
    refine simple (writeAddress { s.ppu with ioLatch := v } v) ?_ ?_ fun _ => ?_ <;> unfold writeAddress <;> split <;> rfl
  | data =>
    obtain ⟨h, ho⟩ := pictureWrite_ppuWrite { s with ppu := { s.ppu with ioLatch := v } } (s.ppu.v.setWidth 14) v
    have e : ppuRegWrite s .data v =
        (let u := ppuWrite { s with ppu := { s.ppu with ioLatch := v } } (s.ppu.v.setWidth 14) v
         { u with ppu := { u.ppu with v := s.ppu.v + dataStep u.ppu } }) := rfl
    rw [e]
    dsimp only
    generalize ppuWrite { s with ppu := { s.ppu with ioLatch := v } } (s.ppu.v.setWidth 14) v = u at h ho ⊢
    exact ⟨h.ram, fun _ => ho, fun g => absurd rfl g, h.apu, h.strobe, h.pads, h.variant, h.prgRam, h.storage, h.identity⟩

theorem acceptsSave_eq_false {c : Cartridge} {a : Word} (h : ¬ (0x6000 ≤ a.toNat ∧ a.toNat < 0x8000)) :
    c.acceptsSave a = false := by
  unfold Cartridge.acceptsSave; simp only [decide_eq_false h, Bool.false_and]

/-- A bus write leaves what `Stored` says (R85). -/
theorem stored_busWrite (s : State) (a : Word) (v : Byte) (hr : Cells.wf s.ram)
    (hp : Cells.wf (width := 8) s.cart.prgRam) : Stored a v s (busWrite s a v) := by
  have hram : ∀ k, Cells.read (busWrite s a v).ram k =
      if regionOf a = .ram ∧ k = ramIndex a then v else Cells.read s.ram k := fun k => by
    rw [busWrite_ram]; exact Cells.read_write_if hr _ _ _ _
  have low : regionOf a ≠ .cartridge → a.toNat ≤ 0x4017 := by
    intro h
    unfold regionOf at h
    split at h
    · omega
    · split at h
      · omega
      · split at h
        · omega
        · exact absurd rfl h
  have nosave : regionOf a ≠ .cartridge → s.cart.acceptsSave a = false := fun h =>
    acceptsSave_eq_false (by have := low h; omega)
  cases h : regionOf a with
  | ram =>
    have hs := nosave (by simp [h])
    rw [busWrite_of_ram s v h] at hram ⊢
    exact ⟨hram, fun k => by simp [hs], fun _ => rfl, fun _ => ⟨rfl, rfl, rfl, rfl⟩,
      fun _ => ⟨rfl, rfl, rfl, rfl⟩, fun _ => rfl, fun _ => rfl, ⟨rfl, rfl⟩, fun _ => rfl, ⟨rfl, rfl, rfl, rfl⟩,
      ⟨rfl, rfl, rfl, rfl⟩⟩
  | picture =>
    have hs := nosave (by simp [h])
    have e : busWrite s a v = ppuRegWrite { s with openBus := v } (ppuRegOf a) v := by unfold busWrite; rw [h]
    have w := pictureWrite_ppuRegWrite { s with openBus := v } (ppuRegOf a) v
    rw [e] at hram ⊢
    generalize ppuRegWrite { s with openBus := v } (ppuRegOf a) v = t at hram w ⊢
    exact ⟨hram, fun k => by rw [w.prgRam]; simp [hs], fun g => w.oam fun g' => g ⟨h, g'⟩,
      fun g => w.video fun g' => g ⟨h, g'⟩, fun g => absurd h g, fun _ => by rw [w.apu],
      fun _ => w.strobe, ⟨by rw [w.pads.1], by rw [w.pads.2]⟩, fun _ => by rw [w.variant], w.storage, w.identity⟩
  | io =>
    have hs := nosave (by simp [h])
    have e : busWrite s a v = ioWrite { s with openBus := v } a v := by unfold busWrite; rw [h]
    rw [e] at hram ⊢
    have hr0 := (regionOf_eq_io_iff a).1 h
    clear hram
    have hn : ∀ k, Cells.read s.ram k = if regionOf a = .ram ∧ k = ramIndex a then v else Cells.read s.ram k := by
      intro k; simp [h]
    unfold ioWrite
    split
    · exact ⟨hn, fun k => by simp [hs], fun _ => rfl, fun _ => ⟨rfl, rfl, rfl, rfl⟩,
        fun _ => ⟨rfl, rfl, rfl, rfl⟩, fun g => absurd h g, fun _ => rfl, ⟨rfl, rfl⟩, fun _ => rfl, ⟨rfl, rfl, rfl, rfl⟩,
        ⟨rfl, rfl, rfl, rfl⟩⟩
    · split
      · exact ⟨hn, fun k => by simp [hs], fun _ => rfl, fun _ => ⟨rfl, rfl, rfl, rfl⟩,
          fun _ => ⟨rfl, rfl, rfl, rfl⟩, fun g => absurd h g, fun _ => rfl, ⟨rfl, rfl⟩, fun _ => rfl, ⟨rfl, rfl, rfl, rfl⟩,
          ⟨rfl, rfl, rfl, rfl⟩⟩
      · split
        · exact ⟨hn, fun k => by simp [hs], fun _ => rfl, fun _ => ⟨rfl, rfl, rfl, rfl⟩,
            fun _ => ⟨rfl, rfl, rfl, rfl⟩, fun g => absurd h g, fun _ => rfl, ⟨rfl, rfl⟩, fun _ => rfl, ⟨rfl, rfl, rfl, rfl⟩,
            ⟨rfl, rfl, rfl, rfl⟩⟩
        · split
          · next g16 =>
            refine ⟨hn, fun k => by simp [hs, strobeWrite], fun _ => rfl, fun _ => ⟨rfl, rfl, rfl, rfl⟩,
              fun _ => ⟨rfl, rfl, rfl, rfl⟩, fun g => absurd h g, fun g => absurd g16 g, ⟨?_, ?_⟩, fun _ => rfl,
              ⟨rfl, rfl, rfl, rfl⟩, ⟨rfl, rfl, rfl, rfl⟩⟩ <;>
            · unfold strobeWrite Pad.strobed; dsimp only; split <;> rfl
          · exact ⟨hn, fun k => by simp [hs], fun _ => rfl, fun _ => ⟨rfl, rfl, rfl, rfl⟩,
              fun _ => ⟨rfl, rfl, rfl, rfl⟩, fun g => absurd h g, fun _ => rfl, ⟨rfl, rfl⟩, fun _ => rfl,
              ⟨rfl, rfl, rfl, rfl⟩, ⟨rfl, rfl, rfl, rfl⟩⟩
  | cartridge =>
    have e : busWrite s a v = { s with openBus := v, cart := cpuWrite s.cart s.chip a v } := by unfold busWrite; rw [h]
    obtain ⟨var, hv, hlow⟩ := cpuWrite_eq s.cart s.chip a v
    rw [hv] at e
    rw [e] at hram ⊢
    exact ⟨hram, fun k => Cells.read_write_if hp _ _ _ _, fun _ => rfl, fun _ => ⟨rfl, rfl, rfl, rfl⟩,
      fun _ => ⟨rfl, rfl, rfl, rfl⟩, fun _ => rfl, fun _ => rfl, ⟨rfl, rfl⟩, fun g => by rw [← hlow g], ⟨rfl, rfl, rfl, rfl⟩,
      ⟨rfl, rfl, rfl, rfl⟩⟩

/-- Read cycles before and after a write add nothing to what it leaves. -/
theorem Stored.of_mem {a : Word} {v : Byte} {s s' t' t : State} (h : MemFrame s s') (k : Stored a v s' t')
    (l : MemFrame t' t) : Stored a v s t := by
  refine ⟨fun j => ?_, fun j => ?_, fun g => ?_, fun g => ?_, fun g => ?_, fun g => ?_, fun g => ?_, ⟨?_, ?_⟩, fun g => ?_,
    ⟨?_, ?_, ?_, ?_⟩, ⟨?_, ?_, ?_, ?_⟩⟩
  · rw [l.ram, k.ram, h.ram]
  · rw [l.prgRam, k.save, h.prgRam, acceptsSave_congr h.banks]
  · rw [l.oam, k.oam g, h.oam]
  · obtain ⟨k1, k2, k3, k4⟩ := k.video g
    exact ⟨by rw [l.vram, k1, h.vram], by rw [l.palette, k2, h.palette], by rw [l.chr, k3, h.chr],
      by rw [l.ntExtra, k4, h.ntExtra]⟩
  · obtain ⟨k1, k2, k3, k4⟩ := k.picture g
    exact ⟨by rw [l.ctrl, k1, h.ctrl], by rw [l.mask, k2, h.mask], by rw [l.latch, k3, h.latch],
      by rw [l.fineX, k4, h.fineX]⟩
  · rw [l.settings, k.settings g, h.settings]
  · rw [l.strobe, k.strobe g, h.strobe]
  · rw [l.buttons1, k.buttons.1, h.buttons1]
  · rw [l.buttons2, k.buttons.2, h.buttons2]
  · rw [l.banks, k.banks g, h.banks]
  · rw [l.prg, k.storage.1, h.prg]
  · rw [l.prgLen, k.storage.2.1, h.prgLen]
  · rw [l.chrLen, k.storage.2.2.1, h.chrLen]
  · rw [l.chrIsRam, k.storage.2.2.2, h.chrIsRam]
  · rw [l.header, k.identity.1, h.header]
  · rw [l.mapperId, k.identity.2.1, h.mapperId]
  · rw [l.battery, k.identity.2.2.1, h.battery]
  · rw [l.chip, k.identity.2.2.2, h.chip]

/-- A second write to the same address decides (R184). -/
theorem Stored.twice {a : Word} {v w : Byte} {s u t : State} (h : Stored a v s u) (k : Stored a w u t) : Stored a w s t := by
  refine ⟨fun j => ?_, fun j => ?_, fun g => (k.oam g).trans (h.oam g), fun g => ?_, fun g => ?_,
    fun g => (k.settings g).trans (h.settings g), fun g => (k.strobe g).trans (h.strobe g),
    ⟨k.buttons.1.trans h.buttons.1, k.buttons.2.trans h.buttons.2⟩, fun g => (k.banks g).trans (h.banks g), ?_, ?_⟩
  · rw [k.ram, h.ram]; split <;> simp_all
  · rw [k.save, h.save]
    by_cases g : 0x6000 ≤ a.toNat ∧ a.toNat < 0x8000
    · rw [acceptsSave_congr (h.banks g.2)]; split <;> simp_all
    · rw [acceptsSave_eq_false g, acceptsSave_eq_false g]; simp
  · obtain ⟨h1, h2, h3, h4⟩ := h.video g
    obtain ⟨k1, k2, k3, k4⟩ := k.video g
    exact ⟨k1.trans h1, k2.trans h2, k3.trans h3, k4.trans h4⟩
  · obtain ⟨h1, h2, h3, h4⟩ := h.picture g
    obtain ⟨k1, k2, k3, k4⟩ := k.picture g
    exact ⟨k1.trans h1, k2.trans h2, k3.trans h3, k4.trans h4⟩
  · obtain ⟨h1, h2, h3, h4⟩ := h.storage
    obtain ⟨k1, k2, k3, k4⟩ := k.storage
    exact ⟨k1.trans h1, k2.trans h2, k3.trans h3, k4.trans h4⟩
  · obtain ⟨h1, h2, h3, h4⟩ := h.identity
    obtain ⟨k1, k2, k3, k4⟩ := k.identity
    exact ⟨k1.trans h1, k2.trans h2, k3.trans h3, k4.trans h4⟩

end Sys2Proof.Machine
end

