-- ==== Sys2Proof/Tests/Slice0.lean ====
section
/-! SUPPORT. Small tests of one step each, their expected results from the worked examples of the spec; the checks that
refuse an ill-formed program; written-out words that decode; and, for each statement with hypotheses, a state and
operands that meet them (`test_meets_…`). -/

set_option Elab.async false

namespace Sys2Proof.Tests

open Sys2Proof Sys2Proof.Machine

/-! ### A machine to run on -/

/-- The cartridge of the examples: Fixed, 32 KiB, the vectors 0x9100, 0x8000, 0x9000 (95_test_vectors.md). Its other bytes
are not listed, so they read 0x00 where the spec's image holds 0xEA; no example's result depends on one. -/
def cartridge : Cartridge :=
  { Cartridge.empty with
    variant := .fixed
    prg := [(0x7FFB, 0x91), (0x7FFD, 0x80), (0x7FFF, 0x90)], prgLen := 0x8000
    chrLen := 0x2000, chrIsRam := true }

/-- The machine of the examples: PC = 0x8000, S = 0xFD, everything else zero. -/
def bench : State :=
  let s := State.powerOn cartridge
  { s with cpu := { s.cpu with pc := 0x8000, s := 0xFD } }

/-- The machine with code at 0x8000, other registers and RAM contents. -/
def program (code : List Byte) (regs : Cpu → Cpu) (ram : Memory) : State :=
  { bench with
    cpu := regs bench.cpu, ram := ram
    cart := { cartridge with prg := Cells.writeList cartridge.prg 0 code } }

/-- What is compared: A, X, Y, S, PC, the status byte with B = 0, the cycles. -/
def registers (s : State) : List Nat :=
  [s.cpu.a.toNat, s.cpu.x.toNat, s.cpu.y.toNat, s.cpu.s.toNat, s.cpu.pc.toNat, (packP s.cpu false).toNat, s.cpu.cycles]

/-- The next state, where there is one. -/
def next? (o : Host.Outcome State Fault Refusal) : Option State :=
  match o with
  | .next t => some t
  | _ => none

/-- The registers after one step, and the bytes of the RAM cells asked for. -/
def runs (code : List Byte) (regs : Cpu → Cpu) (ram : Memory) (cells : List Nat) : Option (List Nat × List Byte) :=
  (next? (step (program code regs ram))).map fun t => (registers t, cells.map (Cells.read t.ram))

/-! ### Well-formedness, decoding, encoding -/

/-- Every term is well formed (R141); what is refused is a byte string that ends within an instruction. -/
theorem test_wf_accepts_every_operand : (Instr.jmpInd 0xFFFF).wf = true ∧ (Instr.bneRel 0x80).wf = true := by decide

theorem test_decode_refuses_no_byte : decode [] = .error .noOpcode := by decide

theorem test_decode_refuses_one_operand_missing : decode [0xA9] = .error .noFirstOperand := by decide

theorem test_decode_refuses_two_operands_missing : decode [0x4C] = .error .noFirstOperand := by decide

theorem test_decode_refuses_second_operand_missing : decode [0x4C, 0x00] = .error .noSecondOperand := by decide

/-- 41: LDA (zp),Y is 1011 0001. -/
theorem test_decode_load : decode [0b10110001, 0x20] = .ok (.ldaIzy 0x20, []) := by decide

/-- 41: STX zp,Y is 1001 0110. -/
theorem test_decode_store : decode [0b10010110, 0xFF] = .ok (.stxZpy 0xFF, []) := by decide

/-- 42: SBC abs is 1110 1101, low byte first. -/
theorem test_decode_arithmetic : decode [0b11101101, 0x34, 0x12] = .ok (.sbcAbs 0x1234, []) := by decide

/-- 43: ROL zp,X is 0011 0110. -/
theorem test_decode_shift : decode [0b00110110, 0x80] = .ok (.rolZpx 0x80, []) := by decide

/-- 44: JMP (abs) is 0110 1100, BVS 0111 0000. -/
theorem test_decode_control : decode [0b01101100, 0xFF, 0x02, 0b01110000, 0xFC] = .ok (.jmpInd 0x02FF, [0x70, 0xFC]) := by
  decide

theorem test_decode_branch : decode [0b01110000, 0xFC] = .ok (.bvsRel 0xFC, []) := by decide

/-- 45: PHP is 0000 1000. -/
theorem test_decode_stack : decode [0b00001000] = .ok (.php, []) := by decide

/-- 46: DCP (zp),Y is 1101 0011, SHY abs,X 1001 1100. -/
theorem test_decode_unofficial : decode [0b11010011, 0x10] = .ok (.dcpIzy 0x10, []) := by decide

theorem test_decode_store_high : decode [0b10011100, 0x00, 0x06] = .ok (.shyAbx 0x0600, []) := by decide

/-- The opcode table numbers the second byte as bits 15..8. -/
theorem test_table_word : decodeTableWord 24 0x1234AD = some (.ldaAbs 0x1234) := by decide

theorem test_table_word_short : decodeTableWord 8 0x4C = some (.jmpAbs 0x0000) := by decide

/-- A word placed where the next step fetches is the instruction that the step runs. -/
theorem test_fetch_word :
    (next? (step (State.reset.withFetchWord 16 0x42A9))).map (fun t => t.cpu.a) = some 0x42 := by decide +kernel

theorem test_fetch_word_jsr :
    (next? (step (State.reset.withFetchWord 24 0x9234 |>.withFetchWord 24 0x923420))).map (fun t => t.cpu.pc) =
      some 0x9234 := by decide +kernel

/-! Load, store, transfer (41_load_store_transfer.md): the Example of each rule. -/

/-- R200. -/
theorem test_lda :
    runs [0xA9, 0x42] id [] [] =
      some ([0x42, 0x00, 0x00, 0xFD, 0x8002, 0x20, 2], []) := by decide +kernel

/-- R201. -/
theorem test_ldx :
    runs [0xB6, 0x80] (fun c => { c with y := 0xFF }) [(0x007F, 0x99)] [] =
      some ([0x00, 0x99, 0xFF, 0xFD, 0x8002, 0xA0, 4], []) := by decide +kernel

/-- R202. -/
theorem test_ldy :
    runs [0xBC, 0xFF, 0x00] (fun c => { c with x := 0x01 }) [] [] =
      some ([0x00, 0x01, 0x00, 0xFD, 0x8003, 0x22, 5], []) := by decide +kernel

/-- R203. -/
theorem test_sta :
    runs [0x9D, 0xF8, 0x02] (fun c => { c with a := 0x5A, x := 0x10 }) [] [0x0308] =
      some ([0x5A, 0x10, 0x00, 0xFD, 0x8003, 0x20, 5], [0x5A]) := by decide +kernel

/-- R204. -/
theorem test_stx :
    runs [0x96, 0xFF] (fun c => { c with x := 0x77, y := 0x02 }) [] [0x0001] =
      some ([0x00, 0x77, 0x02, 0xFD, 0x8002, 0x20, 4], [0x77]) := by decide +kernel

/-- R205. -/
theorem test_sty :
    runs [0x8C, 0x00, 0x03] (fun c => { c with y := 0x33 }) [] [0x0300] =
      some ([0x00, 0x00, 0x33, 0xFD, 0x8003, 0x20, 4], [0x33]) := by decide +kernel

/-- R206. -/
theorem test_tax :
    runs [0xAA] (fun c => { c with a := 0x80 }) [] [] =
      some ([0x80, 0x80, 0x00, 0xFD, 0x8001, 0xA0, 2], []) := by decide +kernel

/-- R207. -/
theorem test_tay :
    runs [0xA8] (fun c => { c with a := 0x00, y := 0x55 }) [] [] =
      some ([0x00, 0x00, 0x00, 0xFD, 0x8001, 0x22, 2], []) := by decide +kernel

/-- R208. -/
theorem test_txa :
    runs [0x8A] (fun c => { c with x := 0x7F }) [] [] =
      some ([0x7F, 0x7F, 0x00, 0xFD, 0x8001, 0x20, 2], []) := by decide +kernel

/-- R209. -/
theorem test_tya :
    runs [0x98] (fun c => { c with y := 0xFF }) [] [] =
      some ([0xFF, 0x00, 0xFF, 0xFD, 0x8001, 0xA0, 2], []) := by decide +kernel

/-- R210. -/
theorem test_tsx :
    runs [0xBA] (fun c => { c with s := 0xFD }) [] [] =
      some ([0x00, 0xFD, 0x00, 0xFD, 0x8001, 0xA0, 2], []) := by decide +kernel

/-- R211. -/
theorem test_txs :
    runs [0x9A] (fun c => { c with x := 0x00, s := 0xFD }) [] [] =
      some ([0x00, 0x00, 0x00, 0x00, 0x8001, 0x20, 2], []) := by decide +kernel


/-! Arithmetic and logic (42_arithmetic_logic.md): the Example of each rule. -/

/-- R214. -/
theorem test_adc :
    runs [0x69, 0x00] (fun c => { c with a := 0x7F, c := true }) [] [] =
      some ([0x80, 0x00, 0x00, 0xFD, 0x8002, 0xE0, 2], []) := by decide +kernel

/-- R215. -/
theorem test_sbc :
    runs [0xE9, 0x01] (fun c => { c with a := 0x80, c := true }) [] [] =
      some ([0x7F, 0x00, 0x00, 0xFD, 0x8002, 0x61, 2], []) := by decide +kernel

/-- R216. -/
theorem test_and :
    runs [0x29, 0x8F] (fun c => { c with a := 0xF0 }) [] [] =
      some ([0x80, 0x00, 0x00, 0xFD, 0x8002, 0xA0, 2], []) := by decide +kernel

/-- R217. -/
theorem test_ora :
    runs [0x01, 0x20] (fun c => { c with a := 0x01, x := 0x04 }) [(0x0025, 0x03), (0x0300, 0x80)] [] =
      some ([0x81, 0x04, 0x00, 0xFD, 0x8002, 0xA0, 6], []) := by decide +kernel

/-- R218. -/
theorem test_eor :
    runs [0x49, 0xFF] (fun c => { c with a := 0xAA }) [] [] =
      some ([0x55, 0x00, 0x00, 0xFD, 0x8002, 0x20, 2], []) := by decide +kernel

/-- R219. -/
theorem test_bit :
    runs [0x24, 0x10] (fun c => { c with a := 0x01 }) [(0x0010, 0xC0)] [] =
      some ([0x01, 0x00, 0x00, 0xFD, 0x8002, 0xE2, 3], []) := by decide +kernel

/-- R220. -/
theorem test_cmp :
    runs [0xC9, 0x41] (fun c => { c with a := 0x40 }) [] [] =
      some ([0x40, 0x00, 0x00, 0xFD, 0x8002, 0xA0, 2], []) := by decide +kernel

/-- R221. -/
theorem test_cpx :
    runs [0xE0, 0x10] (fun c => { c with x := 0x10 }) [] [] =
      some ([0x00, 0x10, 0x00, 0xFD, 0x8002, 0x23, 2], []) := by decide +kernel

/-- R222. -/
theorem test_cpy :
    runs [0xC0, 0x00] (fun c => { c with y := 0xFF }) [] [] =
      some ([0x00, 0x00, 0xFF, 0xFD, 0x8002, 0xA1, 2], []) := by decide +kernel

/-- R223. -/
theorem test_inc :
    runs [0xE6, 0x10] id [(0x0010, 0xFF)] [0x0010] =
      some ([0x00, 0x00, 0x00, 0xFD, 0x8002, 0x22, 5], [0x00]) := by decide +kernel

/-- R224. -/
theorem test_dec :
    runs [0xDE, 0xFF, 0x02] (fun c => { c with x := 0x01 }) [(0x0300, 0x01)] [0x0300] =
      some ([0x00, 0x01, 0x00, 0xFD, 0x8003, 0x22, 7], [0x00]) := by decide +kernel

/-- R225. -/
theorem test_inx :
    runs [0xE8] (fun c => { c with x := 0xFF }) [] [] =
      some ([0x00, 0x00, 0x00, 0xFD, 0x8001, 0x22, 2], []) := by decide +kernel

/-- R226. -/
theorem test_iny :
    runs [0xC8] (fun c => { c with y := 0x7F }) [] [] =
      some ([0x00, 0x00, 0x80, 0xFD, 0x8001, 0xA0, 2], []) := by decide +kernel

/-- R227. -/
theorem test_dex :
    runs [0xCA] (fun c => { c with x := 0x00 }) [] [] =
      some ([0x00, 0xFF, 0x00, 0xFD, 0x8001, 0xA0, 2], []) := by decide +kernel

/-- R228. -/
theorem test_dey :
    runs [0x88] (fun c => { c with y := 0x01 }) [] [] =
      some ([0x00, 0x00, 0x00, 0xFD, 0x8001, 0x22, 2], []) := by decide +kernel


/-! Shift and rotate (43_shift_rotate.md): the Example of each rule. -/

/-- R229. -/
theorem test_asl :
    runs [0x0A] (fun c => { c with a := 0x81 }) [] [] =
      some ([0x02, 0x00, 0x00, 0xFD, 0x8001, 0x21, 2], []) := by decide +kernel

/-- R230. -/
theorem test_lsr :
    runs [0x46, 0x20] id [(0x0020, 0x03)] [0x0020] =
      some ([0x00, 0x00, 0x00, 0xFD, 0x8002, 0x21, 5], [0x01]) := by decide +kernel

/-- R231. -/
theorem test_rol :
    runs [0x2A] (fun c => { c with a := 0x40, c := true }) [] [] =
      some ([0x81, 0x00, 0x00, 0xFD, 0x8001, 0xA0, 2], []) := by decide +kernel

/-- R232. -/
theorem test_ror :
    runs [0x7E, 0x00, 0x03] (fun c => { c with x := 0x02, c := true }) [(0x0302, 0x02)] [0x0302] =
      some ([0x00, 0x02, 0x00, 0xFD, 0x8003, 0xA0, 7], [0x81]) := by decide +kernel


/-! Control flow (44_control_flow.md): the Example of each rule. -/

/-- R234. -/
theorem test_jmp :
    runs [0x6C, 0xFF, 0x02] id [(0x0200, 0x12), (0x02FF, 0x34), (0x0300, 0x99)] [] =
      some ([0x00, 0x00, 0x00, 0xFD, 0x1234, 0x20, 5], []) := by decide +kernel

/-- R235. -/
theorem test_jsr :
    runs [0x20, 0x34, 0x92] (fun c => { c with s := 0xFD }) [] [0x01FD, 0x01FC] =
      some ([0x00, 0x00, 0x00, 0xFB, 0x9234, 0x20, 6], [0x80, 0x02]) := by decide +kernel

/-- R236. -/
theorem test_rts :
    runs [0x60] (fun c => { c with s := 0xFB }) [(0x01FC, 0x02), (0x01FD, 0x80)] [] =
      some ([0x00, 0x00, 0x00, 0xFD, 0x8003, 0x20, 6], []) := by decide +kernel

/-- R237. -/
theorem test_bcc :
    runs [0x90, 0x10] (fun c => { c with c := false }) [] [] =
      some ([0x00, 0x00, 0x00, 0xFD, 0x8012, 0x20, 3], []) := by decide +kernel

/-- R238. -/
theorem test_bcs :
    runs [0xB0, 0x10] (fun c => { c with c := false }) [] [] =
      some ([0x00, 0x00, 0x00, 0xFD, 0x8002, 0x20, 2], []) := by decide +kernel

/-- R239. -/
theorem test_beq :
    runs [0xF0, 0xFE] (fun c => { c with z := true }) [] [] =
      some ([0x00, 0x00, 0x00, 0xFD, 0x8000, 0x22, 3], []) := by decide +kernel

/-- R240. -/
theorem test_bne :
    runs [0xD0, 0x80] (fun c => { c with z := false }) [] [] =
      some ([0x00, 0x00, 0x00, 0xFD, 0x7F82, 0x20, 4], []) := by decide +kernel

/-- R241. -/
theorem test_bmi :
    runs [0x30, 0x7F] (fun c => { c with n := true }) [] [] =
      some ([0x00, 0x00, 0x00, 0xFD, 0x8081, 0xA0, 3], []) := by decide +kernel

/-- R242. -/
theorem test_bpl :
    runs [0x10, 0x7F] (fun c => { c with n := true }) [] [] =
      some ([0x00, 0x00, 0x00, 0xFD, 0x8002, 0xA0, 2], []) := by decide +kernel

/-- R243. -/
theorem test_bvc :
    runs [0x50, 0x00] (fun c => { c with v := false }) [] [] =
      some ([0x00, 0x00, 0x00, 0xFD, 0x8002, 0x20, 3], []) := by decide +kernel

/-- R244. -/
theorem test_bvs :
    runs [0x70, 0xFC] (fun c => { c with v := true }) [] [] =
      some ([0x00, 0x00, 0x00, 0xFD, 0x7FFE, 0x60, 4], []) := by decide +kernel

/-- R245. -/
theorem test_brk :
    runs [0x00, 0xFF] (fun c => { c with s := 0xFD, c := true }) [] [0x01FD, 0x01FC, 0x01FB] =
      some ([0x00, 0x00, 0x00, 0xFA, 0x9000, 0x25, 7], [0x80, 0x02, 0x31]) := by decide +kernel

/-- R246. -/
theorem test_rti :
    runs [0x40] (fun c => { c with s := 0xFA, i := true }) [(0x01FB, 0xC3), (0x01FC, 0x34), (0x01FD, 0x92)] [] =
      some ([0x00, 0x00, 0x00, 0xFD, 0x9234, 0xE3, 6], []) := by decide +kernel


/-! Stack, flags, no-operation (45_stack_flags_nop.md): the Example of each rule. -/

/-- R247. -/
theorem test_pha :
    runs [0x48] (fun c => { c with a := 0x42, s := 0x00 }) [] [0x0100] =
      some ([0x42, 0x00, 0x00, 0xFF, 0x8001, 0x20, 3], [0x42]) := by decide +kernel

/-- R248. -/
theorem test_php :
    runs [0x08] (fun c => { c with s := 0xFF, c := true, n := true }) [] [0x01FF] =
      some ([0x00, 0x00, 0x00, 0xFE, 0x8001, 0xA1, 3], [0xB1]) := by decide +kernel

/-- R249. -/
theorem test_pla :
    runs [0x68] (fun c => { c with s := 0xFF }) [(0x0100, 0x80)] [] =
      some ([0x80, 0x00, 0x00, 0x00, 0x8001, 0xA0, 4], []) := by decide +kernel

/-- R250. -/
theorem test_plp :
    runs [0x28] (fun c => { c with s := 0xFC, i := true }) [(0x01FD, 0xFB)] [] =
      some ([0x00, 0x00, 0x00, 0xFD, 0x8001, 0xEB, 4], []) := by decide +kernel

/-- R251. -/
theorem test_clc :
    runs [0x18] (fun c => { c with c := true }) [] [] =
      some ([0x00, 0x00, 0x00, 0xFD, 0x8001, 0x20, 2], []) := by decide +kernel

/-- R252. -/
theorem test_sec :
    runs [0x38] id [] [] =
      some ([0x00, 0x00, 0x00, 0xFD, 0x8001, 0x21, 2], []) := by decide +kernel

/-- R253. -/
theorem test_cli :
    runs [0x58] (fun c => { c with i := true }) [] [] =
      some ([0x00, 0x00, 0x00, 0xFD, 0x8001, 0x20, 2], []) := by decide +kernel

/-- R254. -/
theorem test_sei :
    runs [0x78] id [] [] =
      some ([0x00, 0x00, 0x00, 0xFD, 0x8001, 0x24, 2], []) := by decide +kernel

/-- R255. -/
theorem test_cld :
    runs [0xD8] (fun c => { c with d := true }) [] [] =
      some ([0x00, 0x00, 0x00, 0xFD, 0x8001, 0x20, 2], []) := by decide +kernel

/-- R256. -/
theorem test_sed :
    runs [0xF8] id [] [] =
      some ([0x00, 0x00, 0x00, 0xFD, 0x8001, 0x28, 2], []) := by decide +kernel

/-- R257. -/
theorem test_clv :
    runs [0xB8] (fun c => { c with v := true }) [] [] =
      some ([0x00, 0x00, 0x00, 0xFD, 0x8001, 0x20, 2], []) := by decide +kernel

/-- R258. -/
theorem test_nop :
    runs [0xEA] id [] [] =
      some ([0x00, 0x00, 0x00, 0xFD, 0x8001, 0x20, 2], []) := by decide +kernel


/-! Unofficial opcodes (46_unofficial.md): the Example of each rule. -/

/-- R260. -/
theorem test_slo :
    runs [0x07, 0x10] (fun c => { c with a := 0x01 }) [(0x0010, 0xC0)] [0x0010] =
      some ([0x81, 0x00, 0x00, 0xFD, 0x8002, 0xA1, 5], [0x80]) := by decide +kernel

/-- R261. -/
theorem test_rla :
    runs [0x27, 0x10] (fun c => { c with a := 0xFF, c := true }) [(0x0010, 0x80)] [0x0010] =
      some ([0x01, 0x00, 0x00, 0xFD, 0x8002, 0x21, 5], [0x01]) := by decide +kernel

/-- R262. -/
theorem test_sre :
    runs [0x47, 0x10] (fun c => { c with a := 0x01 }) [(0x0010, 0x03)] [0x0010] =
      some ([0x00, 0x00, 0x00, 0xFD, 0x8002, 0x23, 5], [0x01]) := by decide +kernel

/-- R263. -/
theorem test_rra :
    runs [0x67, 0x10] (fun c => { c with a := 0x10, c := false }) [(0x0010, 0x03)] [0x0010] =
      some ([0x12, 0x00, 0x00, 0xFD, 0x8002, 0x20, 5], [0x01]) := by decide +kernel

/-- R264. -/
theorem test_sax :
    runs [0x87, 0x10] (fun c => { c with a := 0xF0, x := 0x3C }) [] [0x0010] =
      some ([0xF0, 0x3C, 0x00, 0xFD, 0x8002, 0x20, 3], [0x30]) := by decide +kernel

/-- R265. -/
theorem test_lax :
    runs [0xB3, 0x10] (fun c => { c with y := 0x01 }) [(0x0010, 0xFF), (0x0011, 0x02), (0x0300, 0x7E)] [] =
      some ([0x7E, 0x7E, 0x01, 0xFD, 0x8002, 0x20, 6], []) := by decide +kernel

/-- R266. -/
theorem test_dcp :
    runs [0xC7, 0x10] (fun c => { c with a := 0x05 }) [(0x0010, 0x06)] [0x0010] =
      some ([0x05, 0x00, 0x00, 0xFD, 0x8002, 0x23, 5], [0x05]) := by decide +kernel

/-- R267. -/
theorem test_isc :
    runs [0xE7, 0x10] (fun c => { c with a := 0x10, c := true }) [(0x0010, 0x0F)] [0x0010] =
      some ([0x00, 0x00, 0x00, 0xFD, 0x8002, 0x23, 5], [0x10]) := by decide +kernel

/-- R268. -/
theorem test_anc :
    runs [0x0B, 0x8F] (fun c => { c with a := 0xF0 }) [] [] =
      some ([0x80, 0x00, 0x00, 0xFD, 0x8002, 0xA1, 2], []) := by decide +kernel

/-- R269. -/
theorem test_alr :
    runs [0x4B, 0x03] (fun c => { c with a := 0xFF }) [] [] =
      some ([0x01, 0x00, 0x00, 0xFD, 0x8002, 0x21, 2], []) := by decide +kernel

/-- R270. -/
theorem test_arr :
    runs [0x6B, 0xC0] (fun c => { c with a := 0xFF, c := true }) [] [] =
      some ([0xE0, 0x00, 0x00, 0xFD, 0x8002, 0xA1, 2], []) := by decide +kernel

/-- R271. -/
theorem test_axs :
    runs [0xCB, 0x31] (fun c => { c with a := 0xF0, x := 0x3C }) [] [] =
      some ([0xF0, 0xFF, 0x00, 0xFD, 0x8002, 0xA0, 2], []) := by decide +kernel

/-- R272. -/
theorem test_sbc_unofficial :
    runs [0xEB, 0x01] (fun c => { c with a := 0x00, c := true }) [] [] =
      some ([0xFF, 0x00, 0x00, 0xFD, 0x8002, 0xA0, 2], []) := by decide +kernel

/-- R273. -/
theorem test_nop_unofficial :
    runs [0x1C, 0x01, 0x02] (fun c => { c with x := 0xFF }) [] [] =
      some ([0x00, 0xFF, 0x00, 0xFD, 0x8003, 0x20, 5], []) := by decide +kernel

/-- R274. -/
theorem test_ane :
    runs [0x8B, 0xFF] (fun c => { c with a := 0x00, x := 0xFF }) [] [] =
      some ([0xEE, 0xFF, 0x00, 0xFD, 0x8002, 0xA0, 2], []) := by decide +kernel

/-- R275. -/
theorem test_lxa :
    runs [0xAB, 0x5A] (fun c => { c with a := 0x00 }) [] [] =
      some ([0x5A, 0x5A, 0x00, 0xFD, 0x8002, 0x20, 2], []) := by decide +kernel

/-- R276. -/
theorem test_sha :
    runs [0x9F, 0x00, 0x02] (fun c => { c with a := 0xFF, x := 0xFF, y := 0x01 }) [] [0x0201] =
      some ([0xFF, 0xFF, 0x01, 0xFD, 0x8003, 0x20, 5], [0x03]) := by decide +kernel

/-- R277. -/
theorem test_shx :
    runs [0x9E, 0xF8, 0x02] (fun c => { c with x := 0xFF, y := 0x10 }) [] [0x0308] =
      some ([0x00, 0xFF, 0x10, 0xFD, 0x8003, 0x20, 5], [0x03]) := by decide +kernel

/-- R278. -/
theorem test_shy :
    runs [0x9C, 0x00, 0x06] (fun c => { c with x := 0x01, y := 0x05 }) [] [0x0601] =
      some ([0x00, 0x01, 0x05, 0xFD, 0x8003, 0x20, 5], [0x05]) := by decide +kernel

/-- R279. -/
theorem test_tas :
    runs [0x9B, 0x00, 0x02] (fun c => { c with a := 0xF3, x := 0x3F, y := 0x00, s := 0xFD }) [] [0x0200] =
      some ([0xF3, 0x3F, 0x00, 0x33, 0x8003, 0x20, 5], [0x03]) := by decide +kernel

/-- R280. -/
theorem test_las :
    runs [0xBB, 0x00, 0x03] (fun c => { c with y := 0x00, s := 0xF0 }) [(0x0300, 0x3C)] [] =
      some ([0x30, 0x30, 0x00, 0x30, 0x8003, 0x20, 4], []) := by decide +kernel

/-- R281. -/
theorem test_jam :
    runs [0x02] id [] [] =
      some ([0x00, 0x00, 0x00, 0xFD, 0x8001, 0x20, 2], []) := by decide +kernel


/-! ### Interrupts and reset (60_exceptions.md R430, 64_system_step_and_host.md R645) -/

/-- R430: NMI with N and C set. -/
theorem test_nmi :
    runs [] (fun c => { c with pc := 0x8123, n := true, c := true, nmiPending := true }) [] [0x1FD, 0x1FC, 0x1FB] =
      some ([0x00, 0x00, 0x00, 0xFA, 0x9100, 0xA5, 6], [0x81, 0x23, 0xA1]) := by decide +kernel

/-- R430: the push wraps in the stack page. -/
theorem test_nmi_wraps :
    runs [] (fun c => { c with s := 0x01, nmiPending := true }) [] [0x101, 0x100, 0x1FF] =
      some ([0x00, 0x00, 0x00, 0xFE, 0x9100, 0x24, 6], [0x80, 0x00, 0x20]) := by decide +kernel

/-- D11: with `INT_CYCLES` = 7 the same service takes one more read of PC. -/
theorem test_nmi_in_seven_cycles :
    let s := program [] (fun c => { c with nmiPending := true }) []
    (next? (step { s with chip := { s.chip with intCycles := .seven } })).map (fun t => (t.cpu.cycles, t.cpu.pc)) =
      some (7, 0x9100) := by decide +kernel

/-- The machine with a frame request raised. -/
def requesting (regs : Cpu → Cpu) : State :=
  let s := program [0xEA] regs []
  { s with apu := { s.apu with seq := { s.apu.seq with frameIrq := true } } }

/-- R430: IRQ with all flags clear. -/
theorem test_irq : (next? (step (requesting id))).map registers = some [0x00, 0x00, 0x00, 0xFA, 0x9000, 0x24, 6] := by
  decide +kernel

/-- R430: IRQ masked by I, the NOP runs. -/
theorem test_irq_masked :
    (next? (step (requesting fun c => { c with i := true }))).map registers =
      some [0x00, 0x00, 0x00, 0xFD, 0x8001, 0x24, 2] := by decide +kernel

/-- V60.6: Reset() keeps A, X, Y and N, D, C, and clears I, the jam and the NMI latch. -/
theorem test_reset :
    registers (hostReset (program [] (fun c =>
      { c with
        a := 0x12, x := 0x34, y := 0x56, pc := 0x1234, n := true, c := true, i := true, d := true
        jammed := true, nmiPending := true }) [])) = [0x12, 0x34, 0x56, 0xFA, 0x8000, 0xA9, 6] := by decide +kernel

/-- D15: with `RESET_S_DELTA` = 0 the stack pointer stays. -/
theorem test_reset_keeps_stack_pointer :
    (hostReset { bench with chip := { bench.chip with resetSDelta := .zero } }).cpu.s = 0xFD := by decide +kernel

/-- The first instruction after reset with no cartridge: the open bus reads 0x00 at the vector, and RAM holds BRK. -/
theorem test_reset_state_runs :
    (next? (step State.reset)).map (fun t => (t.cpu.cycles, t.cpu.i, t.cpu.s)) = some (13, true, 0xFA) := by decide +kernel

/-! ### The bus (20_memory.md; 95_test_vectors.md S10 to S15) -/

/-- S10: an unclaimed read returns the last value driven, read or written. -/
theorem test_open_bus :
    (rd (wr (rd bench 0x4018).2 0x0000 0x37) 0x4000).1 = 0x37 := by decide +kernel

/-- S11: a write-only register reads the I/O latch, at a mirror too. -/
theorem test_write_only_register :
    (rd (wr (wr bench 0x2001 0x00) 0x2000 0x05) 0x3FF9).1 = 0x05 := by decide +kernel

/-- S14: A, Start and Right held. -/
theorem test_controller :
    let s := { bench with pad1 := { bench.pad1 with buttons := 0x89 }, openBus := 0x40 }
    let s := wr (wr s 0x4016 0x01) 0x4016 0x00
    ((List.range 10).map fun n => (busRead ((fun u => (busRead u 0x4016).2)^[n] s) 0x4016).1.getLsbD 0) =
      [true, false, false, true, false, false, false, true, true, true] := by decide +kernel

/-- R104: a button pressed while the strobe is high is in the shift register that the write of 0 leaves. -/
theorem test_strobe_follows_buttons :
    (wr (setButton .one .a true (wr bench 0x4016 0x01)) 0x4016 0x00).pad1.shift = 0x01 := by decide +kernel

/-! ### The Picture Unit (61_picture_unit.md R477) -/

/-- P7: byte 2 of object 63, stored 0xFE, reads 0xE2. -/
theorem test_attribute_bits_read_zero :
    let s := { bench with ppu := { bench.ppu with oamAddr := 0xFE } }
    let t := wr s 0x2004 0xFE
    Cells.read t.ppu.oam 0xFE = 0xFE ∧ (rd { t with ppu := { t.ppu with oamAddr := 0xFE } } 0x2004).1 = 0xE2 := by
  decide +kernel

/-- R113, R471: the overflow search reads an attribute byte as every reader does. -/
theorem test_overflow_search_reads_attribute :
    overflowSearch [(2, 0x1C)] 0x00 8 1 0 2 = true ∧ overflowSearch [(2, 0x1C)] 0x1C 8 1 0 2 = false := by decide

theorem test_address_port : (wr (wr bench 0x2006 0x21) 0x2006 0x08).ppu.v = 0x2108 := by decide +kernel

theorem test_scroll_port :
    (wr (wr bench 0x2005 0x7D) 0x2005 0x5E).ppu.t = 0x616F ∧ (wr bench 0x2005 0x7D).ppu.fineX = 5 := by decide +kernel

theorem test_data_port :
    let s := { bench with ppu := { bench.ppu with v := 0x2000, vram := [(0, 0xAA), (1, 0xBB)] } }
    let r1 := rd s 0x2007
    let r2 := rd r1.2 0x2007
    let r3 := rd r2.2 0x2007
    [r1.1, r2.1, r3.1] = [0x00, 0xAA, 0xBB] ∧ r3.2.ppu.v = 0x2003 := by decide +kernel

theorem test_scroll_increments : incX 0x001F = 0x0400 ∧ incY 0x73A0 = 0x0800 := by decide

/-- R472: a sprite row mirrored left to right. -/
theorem test_reverse_bits : reverseBits 0b11010000 = 0b00001011 := by decide

/-! ### The Audio Unit (62_audio_unit.md R555) -/

theorem test_length_load : (wr (wr bench 0x4015 0x01) 0x4003 0x18).apu.pulse1.length = 2 := by decide +kernel

theorem test_length_not_loaded : (wr (wr (wr bench 0x4015 0x0F) 0x4015 0x00) 0x4003 0x18).apu.pulse1.length = 0 := by
  decide +kernel

theorem test_noise_shift : lfsrNext false 1 = 0x4000 := by decide

theorem test_sample_level : dmcLevel true 126 = 126 ∧ dmcLevel true 125 = 127 ∧ dmcLevel false 1 = 1 := by decide

/-- R525, R526: a halted length counter stays and its envelope starts over; one not halted counts down. -/
theorem test_clocks_and_halt :
    let p := { bench.apu.pulse1 with length := 5, halt := true, vol := 3 }
    let u := { bench.apu with pulse1 := p, noise := { bench.apu.noise with length := 5 } }
    u.half.pulse1.length = 5 ∧ u.half.noise.length = 4 ∧ u.quarter.pulse1.envDecay = 15 ∧ u.quarter.pulse1.envDiv = 3 := by
  decide +kernel

/-- R537: a negative sweep of pulse 1 takes one more off than one of pulse 2. -/
theorem test_sweep_targets :
    let p := { bench.apu.pulse1 with period := 0x100, swShift := 4, swNeg := true, swEn := true }
    (p.sweepClock true).period = 0x0EF ∧ (p.sweepClock false).period = 0x0F0 := by decide +kernel

/-- R534: an index at or beyond `NOISE_TABLE_LEN` uses entry 0. -/
theorem test_noise_table_length : noisePeriod 16 15 = 4068 ∧ noisePeriod 8 7 = 160 ∧ noisePeriod 8 8 = 4 := by decide

/-- S7b: three cycles after a write on an even cycle the sequencer restarts. -/
theorem test_sequencer_restart :
    let s := { bench with cpu := { bench.cpu with cycles := 7 }, apu := { bench.apu with seq := { bench.apu.seq with cycle := 7 } } }
    (tick (tick (tick (wr s 0x4017 0x80)))).apu.seq.cycle = 0 ∧ (tick (tick (wr s 0x4017 0x80))).apu.seq.cycle = 10 := by
  decide +kernel

/-! ### The Mapper (63_mapper.md R592, R595, R606) -/

/-- Program storage of `n` banks of `size` bytes, whose bytes below and at its end hold the bank number. -/
def banks (n size : Nat) : Memory :=
  (List.range n).flatMap fun b =>
    if b = 0 then [] else [(b * size, BitVec.ofNat 8 b), (b * size + 0x1234, BitVec.ofNat 8 b),
      (b * size + (size - 1), BitVec.ofNat 8 b)]

/-- SimpleBanked with 8 banks. -/
def simple : Cartridge := { Cartridge.empty with variant := .simpleBanked 0, prg := banks 8 0x4000, prgLen := 0x20000 }

/-- R595. -/
theorem test_simple_banks :
    cpuRead simple 0x8000 = some 0 ∧ cpuRead simple 0xFFFF = some 7 ∧ cpuRead (cpuWrite simple .default 0x8000 0x03) 0x9234 = some 3 ∧
    cpuRead (cpuWrite simple .default 0xFFFF 0x0B) 0x8000 = some 3 ∧ cpuRead (cpuWrite simple .default 0x8000 0xF5) 0x8000 = some 5 ∧
    cpuRead (cpuWrite simple .default 0x8000 0xFF) 0xBFFF = some 7 := by decide +kernel

/-- R585: the mask of the machine, not that of the variant. -/
theorem test_simple_bank_mask :
    (cpuWrite simple { ChipParams.default with bankMaskSimple := 0x07 } 0x8000 0x0B).variant = .simpleBanked 0x03 := by decide

/-- ScanlineIrq with 32 banks. -/
def scanline : Cartridge :=
  { Cartridge.empty with
    variant := .scanlineIrq .powerOn, prg := (banks 32 0x2000).filter (fun p => p.1 % 0x2000 = 0), prgLen := 0x40000
    chr := (List.range 127).map (fun b => ((b + 1) * 0x400, BitVec.ofNat 8 (b + 1))), chrLen := 0x20000 }

/-- R606, the program side. -/
theorem test_scanline_program_banks :
    cpuRead scanline 0xC000 = some 30 ∧ cpuRead scanline 0xE000 = some 31 ∧
    cpuRead (cpuWrite (cpuWrite scanline .default 0x8000 0x07) .default 0x8001 0xE9) 0xA000 = some 9 ∧
    cpuRead (cpuWrite (cpuWrite scanline .default 0x8000 0x46) .default 0x8001 0x05) 0x8000 = some 30 ∧
    cpuRead (cpuWrite (cpuWrite scanline .default 0x8000 0x46) .default 0x8001 0x05) 0xC000 = some 5 ∧
    cpuRead (cpuWrite scanline .default 0xA001 0x00) 0x6000 = none := by decide +kernel

/-- R606, the character side. -/
theorem test_scanline_character_banks :
    ppuChrRead (cpuWrite (cpuWrite scanline .default 0x8000 0x00) .default 0x8001 0x07) 0x0400 = some 7 ∧
    ppuChrRead (cpuWrite (cpuWrite scanline .default 0x8000 0x00) .default 0x8001 0x07) 0x0000 = some 6 ∧
    ppuChrRead (cpuWrite (cpuWrite scanline .default 0x8000 0x82) .default 0x8001 0x90) 0x0000 = some 16 := by decide +kernel

/-! ### The host (64_system_step_and_host.md) -/

/-- R634: an unknown mapper is refused. -/
theorem test_load_refuses_mapper :
    checkImage { mapperId := 1, mirroringHdr := .vertical, hasBattery := false, prgBanks := 0, chrBanks := 0, prg := [], chr := [] }
      none .default = .error .unsupportedMapper := by decide

/-- R587: so is one that `SUPPORTED_MAPPERS` does not list. -/
theorem test_load_refuses_mapper_not_listed :
    checkImage { mapperId := 2, mirroringHdr := .vertical, hasBattery := false, prgBanks := 0, chrBanks := 0, prg := [], chr := [] }
      none { ChipParams.default with supportedMappers := [0, 4] } = .error .unsupportedMapper := by decide

/-- R634: no program bank is a malformed image. -/
theorem test_load_refuses_no_program :
    checkImage { mapperId := 0, mirroringHdr := .vertical, hasBattery := false, prgBanks := 0, chrBanks := 0, prg := [], chr := [] }
      none .default = .error .malformedImage := by decide

/-- R586: the extra name tables are present only in a FourScreen cartridge. -/
theorem test_extra_name_tables :
    let image : Image :=
      { mapperId := 0, mirroringHdr := .fourScreen, hasBattery := false, prgBanks := 1, chrBanks := 0, prg := [], chr := [] }
    let draws : Draws := { ram := [], vram := [], palette := [], oam := [], ntExtra := [(0x10, 0x55)] }
    (image.cartridge none draws .fixed).ntExtra = [(0x10, 0x55)] ∧
    ({ image with mirroringHdr := .vertical }.cartridge none draws .fixed).ntExtra = [] := by decide

/-- R629: a waiting frame is taken once. -/
theorem test_take_frame :
    let s := { bench with ppu := { bench.ppu with frameReady := true } }
    (takeFrame s).1 = some [] ∧ (takeFrame (takeFrame s).2).1 = none := by decide

/-- R621: two cycles of a two-cycle instruction are its step. -/
theorem test_step_cycle :
    next? (step (program [0xA9, 0x42] id [])) = some (stepCycle (stepCycle (program [0xA9, 0x42] id []))) := by decide +kernel

/-! ### States and operands that meet the hypotheses of the statements -/

/-- The machine of the examples meets the invariant. -/
theorem bench_inv : bench.Inv := by
  refine ⟨by decide, ?_, ?_, ⟨by decide, by decide, by decide, by decide, fun _ => by decide, fun _ => rfl⟩,
    ?_, trivial⟩ <;>
    constructor <;> decide

/-- A machine with code in RAM from `pc` on. -/
def inRam (pc : Word) (code : List Byte) : State :=
  { bench with cpu := { bench.cpu with pc := pc }, ram := Cells.writeList [] (pc.toNat % 0x800) code }

theorem test_meets_DecodeEncodeRoundTrip :
    (Instr.jmpInd 0xFFFF).wf = true ∧ decode [0xFF, 0xFF, 0xFF, 0x01] = .ok (.iscAbx 0xFFFF, [0x01]) := by decide

theorem test_meets_StepRunsTheDecodedInstruction :
    Fetching bench ∧
    (let s1 := (fetch bench.begun).2
     let s2 := (fetch s1).2
     decode [peek bench.begun 0x8000, peek s1 s1.cpu.pc, peek s2 s2.cpu.pc] = .ok (.brk, [0x00, 0x00])) ∧
    Fetching { bench with cpu := { bench.cpu with i := true }, apu := (requesting id).apu } := by
  refine ⟨?_, ?_, ?_⟩
  · unfold Fetching; decide
  · decide +kernel
  · unfold Fetching; decide

theorem test_meets_StepRunsTheInstructionInRam :
    (Fetching (inRam 0x0000 [0x4C, 0x34, 0x12]) ∧ fetchesFromRam 0x0000 = true ∧
      decode ((List.range 3).map fun k => Cells.read (inRam 0x0000 [0x4C, 0x34, 0x12]).ram (ramIndex 0x0000 + k)) =
        .ok (.jmpAbs 0x1234, [])) ∧
    (Fetching (inRam 0x1FFD [0x20, 0x34, 0x12]) ∧ fetchesFromRam 0x1FFD = true ∧
      decode ((List.range 3).map fun k => Cells.read (inRam 0x1FFD [0x20, 0x34, 0x12]).ram (ramIndex 0x1FFD + k)) =
        .ok (.jsrAbs 0x1234, [])) ∧
    fetchesFromRam 0x00FD = true ∧ fetchesFromRam 0x0200 = true ∧ fetchesFromRam 0x00FE = false ∧
    fetchesFromRam 0x01FF = false ∧ fetchesFromRam 0x1FFE = false := by
  unfold Fetching; decide

/-- A form of each table of loads and operations. -/
theorem test_meets_read_forms :
    (0xA9, Instr.ldaImm 1) ∈ ldaForms (.imm 1) ∧ (0xBE, Instr.ldxAby 1) ∈ ldxForms (.mem (.aby 1)) ∧
    (0xB4, Instr.ldyZpx 1) ∈ ldyForms (.mem (.zpx 1)) ∧ (0x71, Instr.adcIzy 1) ∈ adcForms (.mem (.izy 1)) ∧
    (0xEB, Instr.sbcImmEB 1) ∈ sbcForms (.imm 1) ∧ (0x21, Instr.andIzx 1) ∈ andForms (.mem (.izx 1)) ∧
    (0x0D, Instr.oraAbs 1) ∈ oraForms (.mem (.abs 1)) ∧ (0x5D, Instr.eorAbx 1) ∈ eorForms (.mem (.abx 1)) ∧
    (0x24, Instr.bitZp 1) ∈ bitForms (.mem (.zp 1)) ∧ (0xC9, Instr.cmpImm 1) ∈ cmpForms (.imm 1) ∧
    (0xE4, Instr.cpxZp 1) ∈ cpxForms (.mem (.zp 1)) ∧ (0xCC, Instr.cpyAbs 1) ∈ cpyForms (.mem (.abs 1)) ∧
    (0xB7, Instr.laxZpy 1) ∈ laxForms (.mem (.zpy 1)) ∧ (0xBB, Instr.lasAby 1) ∈ lasForms (.mem (.aby 1)) ∧
    (0x2B, Instr.ancImm2B 1) ∈ ancForms (.imm 1) ∧ (0x4B, Instr.alrImm 1) ∈ alrForms (.imm 1) ∧
    (0x6B, Instr.arrImm 1) ∈ arrForms (.imm 1) ∧ (0xCB, Instr.axsImm 1) ∈ axsForms (.imm 1) ∧
    (0xFC, Instr.nopAbxFC 1) ∈ nopForms (.mem (.abx 1)) := by
  repeat' apply And.intro
  all_goals decide

/-- A form of each table of stores and read-modify-writes, and a state with the invariant. -/
theorem test_meets_store_forms :
    ((0x91, Instr.staIzy 1) ∈ staForms (.izy 1) ∧ (0x96, Instr.stxZpy 1) ∈ stxForms (.zpy 1) ∧
      (0x94, Instr.styZpx 1) ∈ styForms (.zpx 1) ∧ (0x83, Instr.saxIzx 1) ∈ saxForms (.izx 1) ∧
      (0xEE, Instr.incAbs 1) ∈ incForms (.abs 1) ∧ (0xC6, Instr.decZp 1) ∈ decForms (.zp 1) ∧
      (0x1E, Instr.aslAbx 1) ∈ aslForms (.abx 1) ∧ (0x56, Instr.lsrZpx 1) ∈ lsrForms (.zpx 1) ∧
      (0x26, Instr.rolZp 1) ∈ rolForms (.zp 1) ∧ (0x6E, Instr.rorAbs 1) ∈ rorForms (.abs 1) ∧
      (0x1B, Instr.sloAby 1) ∈ sloForms (.aby 1) ∧ (0x33, Instr.rlaIzy 1) ∈ rlaForms (.izy 1) ∧
      (0x43, Instr.sreIzx 1) ∈ sreForms (.izx 1) ∧ (0x67, Instr.rraZp 1) ∈ rraForms (.zp 1) ∧
      (0xD3, Instr.dcpIzy 1) ∈ dcpForms (.izy 1) ∧ (0xFF, Instr.iscAbx 1) ∈ iscForms (.abx 1) ∧
      (0x93, Instr.shaIzy 1) ∈ shaForms (.izy 1) ∧ (0x9E, Instr.shxAby 1) ∈ shxForms (.aby 1) ∧
      (0x9C, Instr.shyAbx 1) ∈ shyForms (.abx 1) ∧ (0x9B, Instr.tasAby 1) ∈ tasForms (.aby 1)) ∧ bench.Inv :=
  ⟨by repeat' apply And.intro
      all_goals decide, bench_inv⟩

/-- A branch not taken, taken within the page, and taken across one. -/
theorem test_meets_BranchesTakeTheirTarget :
    (!bench.cpu.c) = true ∧ bench.cpu.c = false ∧
    hiByte (BitVec.ofInt 16 (bench.cpu.pc.toNat + (0x7F : Byte).toInt)) = hiByte bench.cpu.pc ∧
    hiByte (BitVec.ofInt 16 (bench.cpu.pc.toNat + (0x80 : Byte).toInt)) ≠ hiByte bench.cpu.pc := by decide

/-- The stack page wraps: S = 0x00 and 0xFF are both stack pointers of a state with the invariant. -/
theorem test_meets_stack_statements :
    bench.Inv ∧ stackCell 0x00 = 0x100 ∧ stackCell (0x00 - 1) = 0x1FF ∧
    ({ bench with cpu := { bench.cpu with s := 0x00 } }).Inv :=
  ⟨bench_inv, by decide, by decide, ⟨bench_inv.ram, bench_inv.memories, bench_inv.raster, bench_inv.storage, bench_inv.channels,
    bench_inv.masked⟩⟩

theorem test_meets_PushesAndPulls :
    ((0x48, Instr.pha, fun c : Cpu => c.a) : Byte × Instr × (Cpu → Byte)) ∈
      [((0x48 : Byte), Instr.pha, fun c : Cpu => c.a), (0x08, .php, fun c => packP c true)] := List.mem_cons_self

theorem test_meets_JamHaltsTheProcessor :
    ((0xF2 : Byte), Instr.jamF2) ∈ [((0x02 : Byte), Instr.jam02), (0x12, .jam12), (0x22, .jam22), (0x32, .jam32),
      (0x42, .jam42), (0x52, .jam52), (0x62, .jam62), (0x72, .jam72), (0x92, .jam92), (0xB2, .jamB2), (0xD2, .jamD2),
      (0xF2, .jamF2)] ∧
    (program [] (fun c => { c with jammed := true, nmiPending := true }) []).cpu.jammed = true ∧
    (program [] (fun c => { c with jammed := true, nmiPending := true }) []).cpu.nmiPending = true := by decide

theorem test_meets_NmiEntersTheHandler :
    let s := program [] (fun c => { c with nmiPending := true, i := true }) []
    s.cpu.jammed = false ∧ s.cpu.nmiPending = true ∧ s.ppu.ctrl.getLsbD 7 = false := by decide

/-- Each of the three sources requests; masked; and none. -/
theorem test_meets_IrqEntersTheHandler :
    (let s := requesting id
     s.cpu.jammed = false ∧ s.cpu.nmiPending = false ∧ s.cpu.i = false ∧ s.apu.seq.frameIrq = true) ∧
    ({ bench.apu.dmc with irqFlag := true }).irqFlag = true ∧
    mapperIrq { Cartridge.empty with variant := .scanlineIrq { ScanlineRegs.powerOn with irqFlag := true } } = true ∧
    (requesting fun c => { c with i := true }).cpu.i = true ∧
    (bench.apu.seq.frameIrq = false ∧ bench.apu.dmc.irqFlag = false ∧ mapperIrq bench.cart = false) := by decide

/-- A step of it, as the statements take one. -/
theorem bench_steps : ∃ t, step bench = .next t := by
  have e : (next? (step bench)).isSome = true := by decide +kernel
  revert e
  cases step bench with
  | next t => exact fun _ => ⟨t, rfl⟩
  | fault r => intro e; cases e
  | refused r => intro e; cases e

theorem test_meets_StepKeepsTheInvariant : ∃ s t : State, s.Inv ∧ step s = .next t :=
  bench_steps.elim fun t h => ⟨bench, t, bench_inv, h⟩

/-- A boundary before an instruction; and one that asks for the DMA. -/
theorem test_meets_StepEndsAtABoundary :
    bench.cpu.dmaPage = none ∧ (∃ t, step bench = .next t) ∧ (program [0x8D, 0x14, 0x40] id []).cpu.dmaPage = none :=
  ⟨by decide, bench_steps, by decide⟩

theorem test_meets_CycleStepsMakeOneStep : bench.AtBoundary ∧ ∃ t, step bench = .next t :=
  ⟨⟨by decide, by decide, by decide⟩, bench_steps⟩

theorem test_meets_StepLeavesRomAndInputs :
    (∃ t, step bench = .next t) ∧ ({ bench.cart with chrIsRam := false }).chrIsRam = false := ⟨bench_steps, rfl⟩

/-- A DMA from the last mirrored page of RAM, after an even and after an odd cycle; and, for the clauses about every page and
state, from the ROM with rendering on. -/
theorem test_meets_DmaCopiesAPage :
    bench.Inv ∧ (0x1F : Byte).toNat < 0x20 ∧ rendering bench.ppu = false ∧
    ({ bench.cpu with dmaPage := some 0x1F }).dmaPage = some 0x1F ∧
    ({ bench.cpu with cycles := 1 }).cycles % 2 = 1 ∧ ({ bench.cpu with dmaPage := some 0xFF }).dmaPage = some 0xFF ∧
    rendering { bench.ppu with mask := 0x18 } = true :=
  ⟨bench_inv, by decide, by decide, by decide, by decide, by decide, by decide⟩

/-- The first and last address of each part of the CPU address space, claimed and not claimed; each register of the window at
its first and last mirror; an attribute byte; a video address on either side of the palette's start. -/
theorem test_meets_BusReadResolution :
    ((0x0000 : Word).toNat ≤ 0x1FFF ∧ (0x1FFF : Word).toNat ≤ 0x1FFF) ∧
    (0x2000 ≤ (0x2000 : Word).toNat ∧ (0x3FFF : Word).toNat ≤ 0x3FFF) ∧
    (0x4000 ≤ (0x4014 : Word).toNat ∧ cpuRead bench.cart 0x4014 = none) ∧
    (0x4000 ≤ (0x4018 : Word).toNat ∧ cpuRead bench.cart 0x4018 = none ∧ cpuRead bench.cart 0x5FFF = none) ∧
    (cpuRead bench.cart 0x6000 = some 0x00 ∧ cpuRead bench.cart 0xFFFF = some 0x90) ∧
    (∀ k < 8, (BitVec.ofNat 16 (0x2000 + k)).toNat % 8 = k ∧ (BitVec.ofNat 16 (0x3FF8 + k)).toNat % 8 = k) ∧
    ((0x02 : Byte).toNat % 4 = 2 ∧ (0x03 : Byte).toNat % 4 ≠ 2) ∧
    ((BitVec.ofNat 14 (0x3EFF : BitVec 15).toNat).toNat ≤ 0x3EFF ∧
      ¬ (BitVec.ofNat 14 (0x7F00 : BitVec 15).toNat).toNat ≤ 0x3EFF) := by decide

/-- R466: in the palette range the colour comes at once, with the I/O latch's upper bits, and the buffer takes the name-table
byte under it. -/
theorem test_palette_read :
    let p : Ppu := { bench.ppu with v := 0x3F10, palette := [(0, 0x21)], vram := [(0x710, 0x77)], ioLatch := 0xC5 }
    let r := busRead { bench with ppu := p } 0x2007
    r.1 = 0xE1 ∧ r.2.ppu.readBuf = 0x77 ∧ r.2.ppu.ioLatch = 0xE1 := by decide +kernel

/-- The first and last address of each part; both states of the toggle; and what a few writes leave. -/
theorem test_meets_BusWriteResolution :
    (bench.Inv ∧ (0x07FF : Word).toNat ≤ 0x1FFF ∧ (0x1FFF : Word).toNat % 0x800 = (0x07FF : Word).toNat % 0x800) ∧
    (∀ k < 8, 0x2000 ≤ (BitVec.ofNat 16 (0x2000 + k)).toNat ∧ (BitVec.ofNat 16 (0x2000 + k)).toNat % 8 = k ∧
      (BitVec.ofNat 16 (0x3FF8 + k)).toNat ≤ 0x3FFF ∧ (BitVec.ofNat 16 (0x3FF8 + k)).toNat % 8 = k) ∧
    ((0x4000 : Word).toNat ≤ 0x4003 ∧ 0x4004 ≤ (0x4004 : Word).toNat ∧ (0x4007 : Word).toNat ≤ 0x4007 ∧
      0x4008 ≤ (0x4008 : Word).toNat ∧ (0x400B : Word).toNat ≤ 0x400B ∧ 0x400C ≤ (0x400C : Word).toNat ∧
      (0x400F : Word).toNat ≤ 0x400F ∧ 0x4010 ≤ (0x4010 : Word).toNat ∧ (0x4013 : Word).toNat ≤ 0x4013) ∧
    (0x4018 ≤ (0x4018 : Word).toNat ∧ 0x4018 ≤ (0xFFFF : Word).toNat) ∧
    ((busWrite bench 0x2005 0x7D).ppu.w = true ∧ (busWrite bench 0x3FFE 0x3F).ppu.t = 0x3F00 ∧
      (busWrite bench 0x4014 0x02).cpu.dmaPage = some 0x02 ∧ (busWrite bench 0x4016 0x01).strobe = true ∧
      (busWrite bench 0x4017 0x80).apu.seq.resetDelay = 5 ∧
      (busWrite { bench with cpu := { bench.cpu with cycles := 1 } } 0x4017 0x80).apu.seq.resetDelay = 4 ∧
      (busWrite bench 0x4013 0x10).apu.dmc.lenReg = 0x10) :=
  ⟨⟨bench_inv, by decide, by decide⟩, by decide, by decide, by decide, by decide +kernel⟩

/-- Every mirroring mode is that of some cartridge. -/
theorem test_meets_NameTableMirroring :
    bench.Inv ∧ mirroring bench.cart = .horizontal ∧
    mirroring { bench.cart with mirroringHdr := .vertical } = .vertical ∧
    mirroring { bench.cart with mirroringHdr := .fourScreen } = .fourScreen ∧ 0xFFF < 0x1000 :=
  ⟨bench_inv, by decide, by decide, by decide, by decide⟩

theorem test_meets_PaletteMirroring :
    bench.Inv ∧ 0x3F00 ≤ (0x3F00 : BitVec 14).toNat ∧ 0x3F00 ≤ (0x3FFF : BitVec 14).toNat :=
  ⟨bench_inv, by decide, by decide⟩

theorem test_meets_ScrollAndAddressPorts :
    ((0x2002 : Word).toNat % 8 = 2 ∧ (0x3FFA : Word).toNat % 8 = 2) ∧
    ((0x2006 : Word).toNat % 8 = 6 ∧ (0x3FFE : Word).toNat % 8 = 6) ∧
    ((0x2005 : Word).toNat % 8 = 5 ∧ (0x3FFD : Word).toNat % 8 = 5) ∧ bench.ppu.w = false := by decide

theorem test_meets_DataPortReadsBackAfterOneRead :
    bench.Inv ∧ 0x2000 ≤ (0x2000 : BitVec 15).toNat ∧ (0x3EFF : BitVec 15).toNat ≤ 0x3EFF := ⟨bench_inv, by decide, by decide⟩

theorem test_meets_ScrollIncrementsWrapIntoTheNextTable :
    ((0x0000 : BitVec 15).toNat / 32) % 32 < 30 ∧ ((0x03BF : BitVec 15).toNat / 32) % 32 < 30 := by decide

/-- A frame that is one dot shorter, and one that is not. -/
theorem test_meets_AFrameIsAFixedNumberOfDots :
    bench.ppu.RasterOk ∧ bench.ppu.scanline = 0 ∧ bench.ppu.dot = 0 ∧
    (let p := { bench.ppu with mask := 0x08, frame := 1, oddFrame := true }
     (p.oddFrame && rendering p) = true ∧ p.oddFrame = decide (p.frame % 2 = 1)) :=
  ⟨bench_inv.raster, by decide, by decide, by decide⟩

theorem test_meets_VerticalBlankAndHandOff :
    ({ bench.ppu with scanline := 261, dot := 1 }).scanline = 261 ∧ ({ bench.ppu with scanline := 261, dot := 1 }).dot = 1 ∧
    ¬ (bench.ppu.scanline = 261 ∧ bench.ppu.dot = 1) := by decide

/-- No object in range, and all 64: object memory full of zeros and line 0. -/
theorem test_meets_SpriteEvaluationTakesTheFirstEight :
    (239 ≤ 239 ∧ (spriteEvaluate 239 bench.ppu).oam2Count = 0) ∧
    (0 ≤ 239 ∧ (spriteEvaluate 0 bench.ppu).oam2Count = 8) := by decide +kernel

/-- A pixel at which the sprite-zero flag rises. -/
def overlapping : Ppu :=
  { bench.ppu with
    mask := 0x1E, bgLo := 0xFFFF
    sprites := { lo := 0xFF, hi := 0x00, attr := 0x00, x := 0x00, isZero := true } :: List.replicate 7 .empty }

/-- The flag rises at the first dot of the last row, and not at x = 255 nor with the background hidden. -/
theorem test_meets_SpriteZeroHitNeedsBothLayers :
    overlapping.MemoriesOk ∧ overlapping.spr0Hit = false ∧ (outputPixel 0 239 overlapping).spr0Hit = true ∧
    (outputPixel 255 239 { overlapping with spr0Hit := true }).spr0Hit = true ∧
    (outputPixel 7 0 { overlapping with mask := 0x18 }).spr0Hit = false :=
  ⟨⟨bench_inv.memories.vram, bench_inv.memories.palette, bench_inv.memories.oam, bench_inv.memories.oam2,
    bench_inv.memories.pixels, bench_inv.memories.frameOut⟩, by decide, by decide +kernel, by decide +kernel, by decide +kernel⟩

/-- No delay, and the longest delay of a write to 0x4017. -/
theorem test_meets_FrameSequencerRequests :
    bench.apu.seq.resetDelay = 0 ∧ bench.apu.seq.mode = false ∧ ({ bench.apu.seq with mode := true }).mode = true ∧
    0 < (busWrite bench 0x4017 0x80).apu.seq.resetDelay ∧ (busWrite bench 0x4017 0x80).apu.seq.mode = true := by
  decide +kernel

/-- Storage that is not empty, of each variant, at the first and last address; both kinds of character storage. -/
theorem test_meets_ProgramBanks :
    (0x8000 ≤ (0x8000 : Word).toNat ∧ 0x8000 ≤ (0xFFFF : Word).toNat) ∧
    (bench.cart.variant = .fixed ∧ 0 < bench.cart.prgLen) ∧ (simple.variant = .simpleBanked 0 ∧ 0 < simple.prgLen) ∧
    (scanline.variant = .scanlineIrq .powerOn ∧ 0 < scanline.prgLen ∧ 0 < scanline.chrLen ∧ scanline.chrIsRam = false) ∧
    ((0x1FFF : BitVec 14).toNat ≤ 0x1FFF ∧ 0 < bench.cart.chrLen ∧ bench.cart.chrIsRam = true) ∧
    Cartridge.empty.variant = .empty ∧
    ((0x5FFF : Word).toNat < 0x6000 ∧ ¬ (0x6000 : Word).toNat < 0x6000 ∧ (0x7FFF : Word).toNat < 0x8000 ∧
      bench.cart.variant ≠ .empty) := by decide

/-- The reset of a machine with either `RESET_S_DELTA`. -/
theorem test_meets_ResetKeepsRegistersAndMemories :
    bench.chip.resetSDelta = .three ∧ ({ bench.chip with resetSDelta := .zero }).resetSDelta = .zero := by decide

/-- An image that loads, one that is malformed, one whose mapper is unknown, and a save buffer of the right length. -/
theorem test_meets_CartridgeLoadChecks :
    (2 ∈ ChipParams.default.supportedMappers ∧ 2 ∈ [0, 2, 4] ∧ 1 ∉ [0, 2, 4] ∧
      2 ∉ ({ ChipParams.default with supportedMappers := [0] }).supportedMappers ∧ (List.replicate 0x4000 (0 : Byte)).length = 1 * 0x4000 ∧
      ([] : List Byte).length = 0 * 0x2000 ∧ (List.replicate 0x2000 (0 : Byte)).length = 0x2000) :=
  ⟨by decide, by decide, by decide, by decide, List.length_replicate, rfl, List.length_replicate⟩

end Sys2Proof.Tests
end

section
/-! The stacked status byte (10_state.md R38): the eight bits of `packP`, its value, and `unpackP` as its inverse. -/

namespace Sys2Proof.Machine

/-- The byte of R38, `N` first and `C` last, built one bit at a time. -/
theorem packP_eq_concat (c : Cpu) (b : Bool) :
    packP c b =
      (((((((BitVec.ofBool c.n).concat c.v).concat true).concat b).concat c.d).concat c.i).concat c.z).concat c.c := rfl

theorem packP_toNat (c : Cpu) (b : Bool) :
    (packP c b).toNat =
      128 * c.n.toNat + 64 * c.v.toNat + 32 + 16 * b.toNat + 8 * c.d.toNat + 4 * c.i.toNat + 2 * c.z.toNat + c.c.toNat := by
  simp only [packP_eq_concat, BitVec.toNat_concat, BitVec.toNat_ofBool, Bool.toNat_true]
  omega

/-- The bits of the status byte, from bit 0 upwards. -/
theorem packP_getLsbD (c : Cpu) (b : Bool) (k : Nat) :
    (packP c b).getLsbD k = [c.c, c.z, c.i, c.d, b, true, c.v, c.n].getD k false := by
  rw [packP_eq_concat]
  match k with
  | 0 | 1 | 2 | 3 | 4 | 5 | 6 | 7 => simp
  | k + 8 => simp

theorem unpackP_packP (c c' : Cpu) (b : Bool) :
    unpackP (packP c b) c' = { c' with n := c.n, v := c.v, d := c.d, i := c.i, z := c.z, c := c.c } := by
  simp only [unpackP, packP_getLsbD, List.getD_cons_zero, List.getD_cons_succ]

/-- `unpackP` reads the six flag bits and no other. -/
theorem unpackP_congr {v w : Byte} (h : ∀ k ∈ [0, 1, 2, 3, 6, 7], v.getLsbD k = w.getLsbD k) (c : Cpu) :
    unpackP v c = unpackP w c := by
  simp only [List.forall_mem_cons] at h
  obtain ⟨hc, hz, hi, hd, hv, hn, -⟩ := h
  simp only [unpackP, hc, hz, hi, hd, hv, hn]

/-- 0x30 has bits 5 and 4 only, so inverting them changes no flag bit. -/
theorem unpackP_xor_bits54 (v : Byte) (c : Cpu) : unpackP (v ^^^ 0x30) c = unpackP v c := by
  have mask_flagBits : ∀ k ∈ [0, 1, 2, 3, 6, 7], (0x30 : Byte).getLsbD k = false := by decide
  refine unpackP_congr (fun k hk => ?_) c
  rw [BitVec.getLsbD_xor, mask_flagBits k hk, Bool.xor_false]

/-- Settles O22: the value of `packP`, `unpackP` after `packP`, and `unpackP` blind to bits 5 and 4. -/
theorem statusByteLayout : Obligations.StatusByteLayout :=
  ⟨packP_toNat, unpackP_packP, unpackP_xor_bits54⟩

end Sys2Proof.Machine
end

section
/-! What an instruction of each shape of Operands.lean (read, store, implied) leaves, said once for every form of a table:
each lemma takes the instruction's meaning as that shape to the completion statement of Safety.lean. -/

namespace Sys2Proof.Machine

/-! ### Registers and spent cycles -/

theorem RegOnly.spent {f : Cpu → Cpu} (hf : RegOnly f) (c : Cpu) (k : Nat) (t : State) :
    f (c.spent k t) = (f c).spent k t := by
  have h := hf c (c.cycles + k) (c.tick + k) t.cpu.nmiPrev t.cpu.nmiPending c.dmaPage
  rw [← hf.cycles c, ← hf.tick c, ← hf.dmaPage c] at h
  rw [Cpu.spent, Cpu.spent, ← h, hf.cycles, hf.tick, hf.dmaPage]

theorem dmaAfter_spent (a : Word) (v : Byte) (c : Cpu) (k : Nat) (t : State) :
    dmaAfter a v (c.spent k t) = (dmaAfter a v c).spent k t := by
  unfold dmaAfter; split <;> rfl

theorem withRegs_eq_self {u : State} {c : Cpu} {k : Nat} (h : u.cpu = c.spent k u) : u.withRegs c k = u := by
  rw [State.withRegs, ← h]

theorem onCpu_eq_withRegs {f : Cpu → Cpu} (hf : RegOnly f) {u : State} {c : Cpu} {k : Nat} (h : u.cpu = c.spent k u) :
    onCpu f u = u.withRegs (f c) k := by
  rw [onCpu_eq, State.withRegs, ← hf.spent, ← h]

/-- The table of R187 has room for the access cycles of each kind (R183 to R185). -/
theorem accessCycles_le_remainingCycles (k : Kind) (p : Place) (s : State) :
    k.accessCycles ≤ remainingCycles k p s := by
  unfold remainingCycles
  cases k <;> cases p <;> simp [totalCycles, Place.length, Kind.accessCycles] <;> omega

/-! ### Forms -/

/-- The form `q` of a table has its opcode byte, and `exec` of its instruction answers `g` of the state. -/
def FormRuns (g : State → State) (q : Byte × Instr) : Prop :=
  (encode q.2).head? = some q.1 ∧ ∀ s : State, exec q.2 s = .next (g s)

theorem formRuns_singleton {g : State → State} {op : Byte} {i : Instr} (he : (encode i).head? = some op)
    (hx : ∀ s : State, exec i s = .next (g s)) : ∀ q ∈ [(op, i)], FormRuns g q :=
  List.forall_mem_singleton.2 ⟨he, hx⟩

/-! ### The shapes -/

/-- The dummy read of PC, then the registers (R170, R174). -/
theorem runsImplied_of_impliedInstr {op : Byte} {i : Instr} {f : Cpu → Cpu} (hf : RegOnly f) (he : encode i = [op])
    (hx : ∀ s : State, exec i s = .next (impliedInstr f s)) : RunsImplied op i f := by
  refine ⟨he, fun s => ?_⟩
  have hr := readOnly_rd s s.cpu.pc
  have ht : impliedInstr f s = (rd s s.cpu.pc).2.withRegs (f s.cpu) 1 := onCpu_eq_withRegs hf hr.cpu
  dsimp only
  rw [← ht]
  exact ⟨hx s, hr.mem.onCpu f⟩

/-- The operand's cycles, then the registers (R171, R183). -/
theorem runsRead_of_readInstr {forms : Source → List (Byte × Instr)} {f : Byte → Cpu → Cpu} (hf : ∀ m, RegOnly (f m))
    (hx : ∀ o, ∀ q ∈ forms o, FormRuns (readInstr f o) q) : RunsRead forms f := by
  intro o q hq
  obtain ⟨hop, hexec⟩ := hx o q hq
  refine ⟨hop, fun s => ?_⟩
  have hr := readOnly_readOperand o s
  have ht : readInstr f o s = (readOperand o s).2.withRegs (f (readOperand o s).1 s.cpu) (o.cycles s) :=
    onCpu_eq_withRegs (hf _) hr.cpu
  dsimp only
  rw [← ht]
  exact ⟨hexec s, hr.mem.onCpu _⟩

/-- The processor after a store: the cycles of R187, and the DMA request of 0x4014 (R185, R63). -/
theorem writeOperand_cpu (p : Place) (v : Byte) (s : State) :
    (writeOperand p v s).cpu = (dmaAfter (addressCycles .write p s).1 v s.cpu).spent (remainingCycles .write p s)
      (writeOperand p v s) := by
  have hcycles : remainingCycles .write p s - 1 + 1 = remainingCycles .write p s :=
    Nat.sub_add_cancel (accessCycles_le_remainingCycles .write p s)
  have hw := wr_cpu (addressCycles .write p s).2 (addressCycles .write p s).1 v
  rw [(readOnly_addressCycles .write p s).cpu, dmaAfter_spent, Cpu.spent_spent] at hw
  rw [← hcycles]
  exact hw

/-- The address cycles are reads, so a store leaves what its one write leaves (R185). -/
theorem stored_writeOperand (p : Place) (v : Byte) {s : State} (hs : s.Inv) :
    Stored (addressCycles .write p s).1 v s (writeOperand p v s) := by
  have hm := (readOnly_addressCycles .write p s).mem
  have hram : Cells.wf (addressCycles .write p s).2.ram := by rw [hm.ram]; exact hs.ram.1
  have hsave : Cells.wf (width := 8) (addressCycles .write p s).2.cart.prgRam := by
    rw [hm.prgRam]; exact hs.storage.prgRam.1
  exact Stored.of_mem hm (stored_busWrite _ _ v hram hsave) (memFrame_wr _ _ v)

/-- The address cycles, then one write (R185). -/
theorem runsStore_of_storeInstr {forms : Place → List (Byte × Instr)} {v : Cpu → Byte}
    (hx : ∀ p, ∀ q ∈ forms p, FormRuns (storeInstr v p) q) : RunsStore forms v := by
  intro p q hq
  obtain ⟨hop, hexec⟩ := hx p q hq
  refine ⟨hop, fun s => ?_⟩
  have ht := withRegs_eq_self (writeOperand_cpu p (v s.cpu) s)
  dsimp only
  rw [writeOperand] at ht
  rw [ht]
  exact ⟨hexec s, stored_writeOperand p (v s.cpu)⟩

end Sys2Proof.Machine
end

section
/-! Load, store, transfer (41_load_store_transfer.md): the forms of each mnemonic run its shape, and its completion
statement follows. -/

namespace Sys2Proof.Machine

/-! ### Register writes -/

theorem regOnly_loadA (m : Byte) : RegOnly (loadA m) := fun _ _ _ _ _ _ => rfl

theorem regOnly_loadX (m : Byte) : RegOnly (loadX m) := fun _ _ _ _ _ _ => rfl

theorem regOnly_loadY (m : Byte) : RegOnly (loadY m) := fun _ _ _ _ _ _ => rfl

/-! ### Loads (R200 to R202) -/

theorem ldaForms_run (o : Source) : ∀ q ∈ ldaForms o, FormRuns (readInstr loadA o) q := by
  unfold ldaForms
  split
  case h_9 => exact List.forall_mem_nil _
  all_goals exact formRuns_singleton rfl fun _ => rfl

theorem ldxForms_run (o : Source) : ∀ q ∈ ldxForms o, FormRuns (readInstr loadX o) q := by
  unfold ldxForms
  split
  case h_6 => exact List.forall_mem_nil _
  all_goals exact formRuns_singleton rfl fun _ => rfl

theorem ldyForms_run (o : Source) : ∀ q ∈ ldyForms o, FormRuns (readInstr loadY o) q := by
  unfold ldyForms
  split
  case h_6 => exact List.forall_mem_nil _
  all_goals exact formRuns_singleton rfl fun _ => rfl

/-- Settles O8: each form is a read instruction whose register write is `loadA`, `loadX` or `loadY`. -/
theorem loadsSetRegisterAndFlags : Obligations.LoadsSetRegisterAndFlags :=
  ⟨runsRead_of_readInstr regOnly_loadA ldaForms_run, runsRead_of_readInstr regOnly_loadX ldxForms_run,
    runsRead_of_readInstr regOnly_loadY ldyForms_run⟩

/-! ### Stores (R203 to R205) -/

theorem staForms_run (p : Place) : ∀ q ∈ staForms p, FormRuns (storeInstr (fun c => c.a) p) q := by
  unfold staForms
  split
  case h_8 => exact List.forall_mem_nil _
  all_goals exact formRuns_singleton rfl fun _ => rfl

theorem stxForms_run (p : Place) : ∀ q ∈ stxForms p, FormRuns (storeInstr (fun c => c.x) p) q := by
  unfold stxForms
  split
  case h_4 => exact List.forall_mem_nil _
  all_goals exact formRuns_singleton rfl fun _ => rfl

theorem styForms_run (p : Place) : ∀ q ∈ styForms p, FormRuns (storeInstr (fun c => c.y) p) q := by
  unfold styForms
  split
  case h_4 => exact List.forall_mem_nil _
  all_goals exact formRuns_singleton rfl fun _ => rfl

/-- Settles O9: each form is a store of its register. -/
theorem storesWriteTheRegister : Obligations.StoresWriteTheRegister :=
  ⟨runsStore_of_storeInstr staForms_run, runsStore_of_storeInstr stxForms_run, runsStore_of_storeInstr styForms_run⟩

/-! ### Transfers (R206 to R211) -/

/-- Settles O10: each is an implied instruction; the register written is loaded with its flags, but for TXS. -/
theorem transfersCopyARegister : Obligations.TransfersCopyARegister := by
  refine ⟨?_, ?_, ?_, ?_, ?_, ?_⟩
  all_goals exact runsImplied_of_impliedInstr (fun _ _ _ _ _ _ => rfl) rfl fun _ => rfl

end Sys2Proof.Machine
end

section
/-! The read-modify-write shape of Operands.lean (R184): what its cycles leave, and the step from an instruction's meaning
as that shape to `RunsModify`. -/

namespace Sys2Proof.Machine

/-! ### The invariant through the address cycles -/

theorem inv_readPointer {s : State} (p : Byte) (h : s.Inv) : (readPointer p s).2.Inv := by
  rw [readPointer_snd]
  exact inv_rd _ (inv_rd _ h)

theorem inv_baseOf {s : State} (p : Place) (h : s.Inv) : (baseOf p s).2.Inv := by
  cases p with
  | zp z | abs w | abx w | aby w => exact h
  | zpx z | zpy z => exact inv_rd _ h
  | izx z => exact inv_readPointer _ (inv_rd _ h)
  | izy z => exact inv_readPointer _ h

theorem inv_indexCycle {s : State} (k : Kind) (base : Word) (index : Byte) (h : s.Inv) :
    (indexCycle k base index s).Inv := by
  unfold indexCycle
  split
  · exact h
  · exact inv_rd _ h

theorem inv_addressCycles {s : State} (k : Kind) (p : Place) (h : s.Inv) : (addressCycles k p s).2.Inv := by
  have hb := inv_baseOf p h
  unfold addressCycles
  cases indexOf p s.cpu with
  | none => exact hb
  | some index => exact inv_indexCycle k _ index hb

/-! ### Two writes at one address -/

/-- The second write decides what a DMA request holds (R63). -/
theorem dmaAfter_dmaAfter (a : Word) (v w : Byte) (c : Cpu) : dmaAfter a w (dmaAfter a v c) = dmaAfter a w c := by
  unfold dmaAfter; split <;> rfl

theorem RegOnly.map_dmaAfter {f : Cpu → Cpu} (hf : RegOnly f) (a : Word) (v : Byte) (c : Cpu) :
    f (dmaAfter a v c) = dmaAfter a v (f c) := by
  unfold dmaAfter
  split
  · have h := hf c c.cycles c.tick c.nmiPrev c.nmiPending (some v)
    rw [hf.same c]
    exact h
  · rfl

theorem wr_wr_cpu (s : State) (a : Word) (v w : Byte) :
    (wr (wr s a v) a w).cpu = (dmaAfter a w s.cpu).spent 2 (wr (wr s a v) a w) := by
  have h := wr_cpu (wr s a v) a w
  rw [wr_cpu s a v, dmaAfter_spent, dmaAfter_dmaAfter, Cpu.spent_spent] at h
  exact h

theorem stored_wr (a : Word) (v : Byte) {s : State} (hs : s.Inv) : Stored a v s (wr s a v) :=
  .of_mem (.refl s) (stored_busWrite s a v hs.ram.1 hs.storage.prgRam.1) (memFrame_wr s a v)

theorem Stored.onCpu {a : Word} {v : Byte} {s t : State} (f : Cpu → Cpu) (h : Stored a v s t) :
    Stored a v s (onCpu f t) :=
  .of_mem (.refl s) h (.onCpu f (.refl t))

/-! ### The shape -/

theorem modifyOperand_fst (p : Place) (f : Byte → Byte) (s : State) :
    (modifyOperand p f s).1 = (rd (addressCycles .modify p s).2 (addressCycles .modify p s).1).1 := by
  unfold modifyOperand; dsimp only

/-- The cycles of a read-modify-write: the old byte written back, then the new one (R184). -/
theorem modifyOperand_snd (p : Place) (f : Byte → Byte) (s : State) :
    (modifyOperand p f s).2 =
      wr (wr (rd (addressCycles .modify p s).2 (addressCycles .modify p s).1).2 (addressCycles .modify p s).1
        (modifyOperand p f s).1) (addressCycles .modify p s).1 (f (modifyOperand p f s).1) := by
  unfold modifyOperand; dsimp only

/-- The processor after a read-modify-write: the cycles of R187, and the DMA request of the new byte where the address is
0x4014 (R184, R63). -/
theorem modifyOperand_cpu (p : Place) (f : Byte → Byte) (s : State) :
    (modifyOperand p f s).2.cpu =
      (dmaAfter (addressCycles .modify p s).1 (f (modifyOperand p f s).1) s.cpu).spent (remainingCycles .modify p s)
        (modifyOperand p f s).2 := by
  have hcycles : remainingCycles .modify p s - 3 + 1 + 2 = remainingCycles .modify p s :=
    Nat.sub_add_cancel (accessCycles_le_remainingCycles .modify p s)
  have hread := (readOnly_addressCycles .modify p s).trans (readOnly_rd _ (addressCycles .modify p s).1)
  have hw := wr_wr_cpu (rd (addressCycles .modify p s).2 (addressCycles .modify p s).1).2 (addressCycles .modify p s).1
    (modifyOperand p f s).1 (f (modifyOperand p f s).1)
  rw [hread.cpu, dmaAfter_spent, Cpu.spent_spent, ← modifyOperand_snd] at hw
  rw [← hcycles]
  exact hw

/-- Of the two writes the second, the new byte's, decides (R184). -/
theorem stored_modifyOperand (p : Place) (f : Byte → Byte) {s : State} (hs : s.Inv) :
    Stored (addressCycles .modify p s).1 (f (modifyOperand p f s).1) s (modifyOperand p f s).2 := by
  have hread := (readOnly_addressCycles .modify p s).trans (readOnly_rd _ (addressCycles .modify p s).1)
  have hinv := inv_rd (addressCycles .modify p s).1 (inv_addressCycles .modify p hs)
  have hwrites := (stored_wr (addressCycles .modify p s).1 (modifyOperand p f s).1 hinv).twice
    (stored_wr (addressCycles .modify p s).1 (f (modifyOperand p f s).1) (inv_wr _ _ hinv))
  rw [← modifyOperand_snd] at hwrites
  exact .of_mem hread.mem hwrites (.refl _)

/-- The address cycles, the read, the two writes, then the registers (R184). -/
theorem runsModify_of_modifyInstr {forms : Place → List (Byte × Instr)} {g : Byte → Cpu → Byte × Cpu}
    (hg : ∀ m, RegOnly fun c => (g m c).2) (hx : ∀ p, ∀ q ∈ forms p, FormRuns (modifyInstr g p) q) :
    RunsModify forms g := by
  intro p q hq
  obtain ⟨hop, hexec⟩ := hx p q hq
  refine ⟨hop, fun s => ?_⟩
  have ht := onCpu_eq_withRegs (hg (modifyOperand p (fun v => (g v s.cpu).1) s).1)
    (modifyOperand_cpu p (fun v => (g v s.cpu).1) s)
  rw [(hg _).map_dmaAfter] at ht
  dsimp only
  rw [← modifyOperand_fst p fun v => (g v s.cpu).1, ← modifyOperand_snd p fun v => (g v s.cpu).1, ← ht]
  exact ⟨hexec s, fun hs => (stored_modifyOperand p (fun v => (g v s.cpu).1) hs).onCpu _⟩

end Sys2Proof.Machine
end

section
/-! The adder (R212) and the subtraction built on it (R215) as exact arithmetic: unsigned sums for the byte and the carry,
signed sums for the overflow. -/

namespace Sys2Proof.Machine

/-! ### Bytes as numbers -/

theorem getLsbD_seven (b : Byte) : b.getLsbD 7 = decide (0x80 ≤ b.toNat) := BitVec.msb_eq_decide b

/-- The signed value of a byte: bit 7 counts -128. -/
theorem byte_toInt (b : Byte) : b.toInt = b.toNat - if 0x80 ≤ b.toNat then 0x100 else 0 := by
  rw [BitVec.toInt_eq_toNat_cond]
  omega

theorem ofNat_byte_getLsbD_seven (t : Nat) : (BitVec.ofNat 8 t).getLsbD 7 = decide (0x80 ≤ t % 0x100) := by
  rw [getLsbD_seven, BitVec.toNat_ofNat]

theorem ofNat_byte_beq_zero (t : Nat) : (BitVec.ofNat 8 t == 0) = decide (t % 0x100 = 0) := by
  rw [Bool.beq_eq_decide_eq, decide_eq_decide, BitVec.toNat_eq, BitVec.toNat_ofNat]
  rfl

/-! ### The adder -/

/-- Bit 7 of the result differs from that of both operands exactly where the signed sum leaves -128..127 (R212). -/
theorem addWithCarry_overflow (a m : Byte) (carry : Bool) :
    (addWithCarry a m carry).2.2 =
      decide (a.toInt + m.toInt + (carry.toNat : Int) < -128 ∨ 127 < a.toInt + m.toInt + (carry.toNat : Int)) := by
  have ha := a.isLt
  have hm := m.isLt
  have hc := carry.toNat_le
  unfold addWithCarry
  dsimp only
  rw [BitVec.getLsbD_and, BitVec.getLsbD_xor, BitVec.getLsbD_xor, ofNat_byte_getLsbD_seven, getLsbD_seven, getLsbD_seven,
    byte_toInt, byte_toInt, Bool.eq_iff_iff]
  simp only [Bool.and_eq_true, bne_iff_ne, ne_eq, decide_eq_decide, decide_eq_true_eq]
  omega

/-- `addToA` as exact arithmetic; `D` takes no part (R214). -/
theorem addToA_eq (m : Byte) (c : Cpu) :
    addToA m c =
      let sum := c.a.toNat + m.toNat + c.c.toNat
      let signed := c.a.toInt + m.toInt + (c.c.toNat : Int)
      { c with
        a := BitVec.ofNat 8 sum, c := decide (0xFF < sum), v := decide (signed < -128 ∨ 127 < signed)
        z := decide (sum % 0x100 = 0), n := decide (0x80 ≤ sum % 0x100) } := by
  dsimp only
  rw [← addWithCarry_overflow, ← ofNat_byte_beq_zero, ← ofNat_byte_getLsbD_seven]
  rfl

/-! ### Subtraction -/

theorem complement_toNat (m : Byte) : (m ^^^ 0xFF).toNat = 0xFF - m.toNat := by
  rw [show m ^^^ 0xFF = ~~~m from BitVec.xor_allOnes, BitVec.toNat_not]

theorem complement_toInt (m : Byte) : (m ^^^ 0xFF).toInt = -1 - m.toInt := by
  have := m.isLt
  rw [byte_toInt, byte_toInt, complement_toNat]
  omega

/-- `subtractFromA` as exact arithmetic: the sum with the complement is the difference plus 256 (R215). -/
theorem subtractFromA_eq (m : Byte) (c : Cpu) :
    subtractFromA m c =
      let borrow : Int := if c.c then 0 else 1
      let diff := (c.a.toNat : Int) - m.toNat - borrow
      let signed := c.a.toInt - m.toInt - borrow
      { c with
        a := BitVec.ofInt 8 diff, c := decide (0 ≤ diff), v := decide (signed < -128 ∨ 127 < signed)
        z := decide (diff % 0x100 = 0), n := decide (0x80 ≤ diff % 0x100) } := by
  have hm := m.isLt
  have hborrow : (if c.c then 0 else 1 : Int) = 1 - (c.c.toNat : Int) := by cases c.c <;> rfl
  have hsum : ((c.a.toNat + (0xFF - m.toNat) + c.c.toNat : Nat) : Int) =
      (c.a.toNat : Int) - m.toNat - (1 - (c.c.toNat : Int)) + 0x100 := by omega
  have hsigned : c.a.toInt + (-1 - m.toInt) + (c.c.toNat : Int) = c.a.toInt - m.toInt - (1 - (c.c.toNat : Int)) := by
    omega
  unfold subtractFromA
  rw [addToA_eq, complement_toNat, complement_toInt, hsigned, hborrow]
  dsimp only
  generalize (c.a.toNat : Int) - m.toNat - (1 - (c.c.toNat : Int)) = diff at hsum ⊢
  generalize c.a.toNat + (0xFF - m.toNat) + c.c.toNat = sum at hsum ⊢
  have hbyte : BitVec.ofNat 8 sum = BitVec.ofInt 8 diff := by
    apply BitVec.eq_of_toNat_eq
    rw [BitVec.toNat_ofNat, BitVec.toNat_ofInt]
    omega
  have hcarry : 0xFF < sum ↔ 0 ≤ diff := by omega
  have hzero : sum % 0x100 = 0 ↔ diff % 0x100 = 0 := by omega
  have hneg : 0x80 ≤ sum % 0x100 ↔ 0x80 ≤ diff % 0x100 := by omega
  rw [hbyte, decide_eq_decide.2 hcarry, decide_eq_decide.2 hzero, decide_eq_decide.2 hneg]

end Sys2Proof.Machine
end

section
/-! Arithmetic and logic (42_arithmetic_logic.md): the forms of each mnemonic run its shape, and its completion statement
follows. -/

namespace Sys2Proof.Machine

theorem RunsRead.congr {forms : Source → List (Byte × Instr)} {f g : Byte → Cpu → Cpu} (h : ∀ m c, f m c = g m c)
    (hf : RunsRead forms f) : RunsRead forms g :=
  (funext₂ h : f = g) ▸ hf

/-! ### Register writes -/

theorem regOnly_addToA (m : Byte) : RegOnly (addToA m) := fun _ _ _ _ _ _ => rfl

theorem regOnly_subtractFromA (m : Byte) : RegOnly (subtractFromA m) := regOnly_addToA _

/-! ### ADC and SBC (R214, R215, R272) -/

theorem adcForms_run (o : Source) : ∀ q ∈ adcForms o, FormRuns (readInstr addToA o) q := by
  unfold adcForms
  split
  case h_9 => exact List.forall_mem_nil _
  all_goals exact formRuns_singleton rfl fun _ => rfl

theorem sbcForms_run (o : Source) : ∀ q ∈ sbcForms o, FormRuns (readInstr subtractFromA o) q := by
  unfold sbcForms
  split
  case h_1 => exact List.forall_mem_cons.2 ⟨⟨rfl, fun _ => rfl⟩, formRuns_singleton rfl fun _ => rfl⟩
  case h_9 => exact List.forall_mem_nil _
  all_goals exact formRuns_singleton rfl fun _ => rfl

/-- Settles O11: each form is a read instruction whose register write is the adder's, exact by `addToA_eq`. -/
theorem adcAddsExactly : Obligations.AdcAddsExactly :=
  (runsRead_of_readInstr regOnly_addToA adcForms_run).congr addToA_eq

/-- Settles O12: the same with the complemented operand, exact by `subtractFromA_eq`. -/
theorem sbcSubtractsExactly : Obligations.SbcSubtractsExactly :=
  (runsRead_of_readInstr regOnly_subtractFromA sbcForms_run).congr subtractFromA_eq

/-! ### AND, ORA, EOR, BIT (R216 to R219) -/

theorem andForms_run (o : Source) : ∀ q ∈ andForms o, FormRuns (readInstr andFn o) q := by
  unfold andForms
  split
  case h_9 => exact List.forall_mem_nil _
  all_goals exact formRuns_singleton rfl fun _ => rfl

theorem oraForms_run (o : Source) : ∀ q ∈ oraForms o, FormRuns (readInstr oraFn o) q := by
  unfold oraForms
  split
  case h_9 => exact List.forall_mem_nil _
  all_goals exact formRuns_singleton rfl fun _ => rfl

theorem eorForms_run (o : Source) : ∀ q ∈ eorForms o, FormRuns (readInstr eorFn o) q := by
  unfold eorForms
  split
  case h_9 => exact List.forall_mem_nil _
  all_goals exact formRuns_singleton rfl fun _ => rfl

theorem bitForms_run (o : Source) : ∀ q ∈ bitForms o, FormRuns (readInstr bitFlags o) q := by
  unfold bitForms
  split
  case h_3 => exact List.forall_mem_nil _
  all_goals exact formRuns_singleton rfl fun _ => rfl

/-- Settles O13: each is a read instruction; AND, ORA and EOR load A with the result, BIT writes flags alone. -/
theorem logicSetsAccumulatorAndFlags : Obligations.LogicSetsAccumulatorAndFlags :=
  ⟨runsRead_of_readInstr (fun _ _ _ _ _ _ _ => rfl) andForms_run,
    runsRead_of_readInstr (fun _ _ _ _ _ _ _ => rfl) oraForms_run,
    runsRead_of_readInstr (fun _ _ _ _ _ _ _ => rfl) eorForms_run,
    runsRead_of_readInstr (fun _ _ _ _ _ _ _ => rfl) bitForms_run⟩

/-! ### CMP, CPX, CPY (R220 to R222) -/

theorem cmpForms_run (o : Source) : ∀ q ∈ cmpForms o, FormRuns (readInstr cmpFn o) q := by
  unfold cmpForms
  split
  case h_9 => exact List.forall_mem_nil _
  all_goals exact formRuns_singleton rfl fun _ => rfl

theorem cpxForms_run (o : Source) : ∀ q ∈ cpxForms o, FormRuns (readInstr cpxFn o) q := by
  unfold cpxForms
  split
  case h_4 => exact List.forall_mem_nil _
  all_goals exact formRuns_singleton rfl fun _ => rfl

theorem cpyForms_run (o : Source) : ∀ q ∈ cpyForms o, FormRuns (readInstr cpyFn o) q := by
  unfold cpyForms
  split
  case h_4 => exact List.forall_mem_nil _
  all_goals exact formRuns_singleton rfl fun _ => rfl

/-- Settles O14: each is a read instruction that writes the three flags of `compareFlags` (R213). -/
theorem comparesSetThreeFlags : Obligations.ComparesSetThreeFlags :=
  ⟨runsRead_of_readInstr (fun _ _ _ _ _ _ _ => rfl) cmpForms_run,
    runsRead_of_readInstr (fun _ _ _ _ _ _ _ => rfl) cpxForms_run,
    runsRead_of_readInstr (fun _ _ _ _ _ _ _ => rfl) cpyForms_run⟩

/-! ### Increments and decrements (R223 to R228) -/

theorem incForms_run (p : Place) : ∀ q ∈ incForms p, FormRuns (modifyInstr incFn p) q := by
  unfold incForms
  split
  case h_5 => exact List.forall_mem_nil _
  all_goals exact formRuns_singleton rfl fun _ => rfl

theorem decForms_run (p : Place) : ∀ q ∈ decForms p, FormRuns (modifyInstr decFn p) q := by
  unfold decForms
  split
  case h_5 => exact List.forall_mem_nil _
  all_goals exact formRuns_singleton rfl fun _ => rfl

/-- Settles O15: INC and DEC are read-modify-write instructions, the other four implied ones that load X or Y. -/
theorem incrementsAndDecrements : Obligations.IncrementsAndDecrements := by
  refine ⟨runsModify_of_modifyInstr (fun _ _ _ _ _ _ _ => rfl) incForms_run,
    runsModify_of_modifyInstr (fun _ _ _ _ _ _ _ => rfl) decForms_run, ?_, ?_, ?_, ?_⟩
  all_goals exact runsImplied_of_impliedInstr (fun _ _ _ _ _ _ => rfl) rfl fun _ => rfl

end Sys2Proof.Machine
end

section
/-! Shift and rotate (43_shift_rotate.md): the four shifts of a byte as arithmetic on 0..255, and the completion statement
of the forms that run them. -/

namespace Sys2Proof.Machine

theorem RunsModify.congr {forms : Place → List (Byte × Instr)} {f g : Byte → Cpu → Byte × Cpu}
    (h : ∀ m c, f m c = g m c) (hf : RunsModify forms f) : RunsModify forms g :=
  (funext₂ h : f = g) ▸ hf

theorem RunsImplied.congr {op : Byte} {i : Instr} {f g : Cpu → Cpu} (h : ∀ c, f c = g c) (hf : RunsImplied op i f) :
    RunsImplied op i g :=
  (funext h : f = g) ▸ hf

/-! ### The bit that leaves, and the bit that enters -/

theorem getLsbD_zero (b : Byte) : b.getLsbD 0 = decide (b.toNat % 2 = 1) := Nat.testBit_zero b.toNat

theorem carryByte_toNat (carry : Bool) : ((BitVec.ofBool carry).setWidth 8).toNat = carry.toNat := by
  cases carry <;> rfl

/-! ### The byte and the carry of each shift -/

theorem doubled_toNat (v : Byte) : (v <<< 1).toNat = 2 * v.toNat % 0x100 := by
  rw [BitVec.toNat_shiftLeft, Nat.shiftLeft_eq, Nat.mul_comm, Nat.pow_one]

theorem halved_toNat (v : Byte) : (v >>> 1).toNat = v.toNat / 2 := by
  rw [BitVec.toNat_ushiftRight, Nat.shiftRight_eq_div_pow, Nat.pow_one]

theorem aslByte_eq (v : Byte) : aslByte v = (BitVec.ofNat 8 (2 * v.toNat), decide (128 ≤ v.toNat)) := by
  have hbyte : v <<< 1 = BitVec.ofNat 8 (2 * v.toNat) := by
    apply BitVec.eq_of_toNat_eq
    rw [doubled_toNat, BitVec.toNat_ofNat]
  rw [aslByte, hbyte, getLsbD_seven]

theorem lsrByte_eq (v : Byte) : lsrByte v = (BitVec.ofNat 8 (v.toNat / 2), decide (v.toNat % 2 = 1)) := by
  have hbyte : v >>> 1 = BitVec.ofNat 8 (v.toNat / 2) := by
    apply BitVec.eq_of_toNat_eq
    rw [halved_toNat, BitVec.toNat_ofNat]
    omega
  rw [lsrByte, hbyte, getLsbD_zero]

/-- The doubled byte is even, so the old carry fills bit 0 as a sum does (R231). -/
theorem rolByte_eq (carry : Bool) (v : Byte) :
    rolByte carry v = (BitVec.ofNat 8 (2 * v.toNat + carry.toNat), decide (128 ≤ v.toNat)) := by
  have hbyte : (v <<< 1) ||| (BitVec.ofBool carry).setWidth 8 = BitVec.ofNat 8 (2 * v.toNat + carry.toNat) := by
    have hcarry : carry.toNat < 2 ^ 1 := carry.toNat_lt
    have heven : 2 * v.toNat % 0x100 = 2 ^ 1 * (v.toNat % 0x80) := by omega
    apply BitVec.eq_of_toNat_eq
    rw [BitVec.toNat_or, doubled_toNat, carryByte_toNat, heven, ← Nat.two_pow_add_eq_or_of_lt hcarry, BitVec.toNat_ofNat]
    omega
  rw [rolByte, hbyte, getLsbD_seven]

/-- The halved byte is below 128, so the old carry fills bit 7 as a sum does (R232). -/
theorem rorByte_eq (carry : Bool) (v : Byte) :
    rorByte carry v = (BitVec.ofNat 8 (v.toNat / 2 + 128 * carry.toNat), decide (v.toNat % 2 = 1)) := by
  have hbyte : (v >>> 1) ||| ((BitVec.ofBool carry).setWidth 8 <<< 7) =
      BitVec.ofNat 8 (v.toNat / 2 + 128 * carry.toNat) := by
    have hv := v.isLt
    have hcarry := carry.toNat_lt
    have hhalf : v.toNat / 2 < 2 ^ 7 := by omega
    have htop : carry.toNat <<< 7 % 2 ^ 8 = 2 ^ 7 * carry.toNat := by omega
    apply BitVec.eq_of_toNat_eq
    rw [BitVec.toNat_or, halved_toNat, BitVec.toNat_shiftLeft, carryByte_toNat, htop, Nat.or_comm,
      ← Nat.two_pow_add_eq_or_of_lt hhalf, BitVec.toNat_ofNat]
    omega
  rw [rorByte, hbyte, getLsbD_zero]

/-! ### Bit 7 of a byte shifted right -/

theorem lsr_getLsbD_seven (v : Byte) : (BitVec.ofNat 8 (v.toNat / 2)).getLsbD 7 = false := by
  have hv := v.isLt
  rw [ofNat_byte_getLsbD_seven, decide_eq_false_iff_not]
  omega

theorem ror_getLsbD_seven (v : Byte) (carry : Bool) :
    (BitVec.ofNat 8 (v.toNat / 2 + 128 * carry.toNat)).getLsbD 7 = carry := by
  have hv := v.isLt
  rw [ofNat_byte_getLsbD_seven]
  cases carry with
  | false => rw [Bool.toNat_false, decide_eq_false_iff_not]; omega
  | true => rw [Bool.toNat_true, decide_eq_true_iff]; omega

/-! ### Registers -/

/-- A shift of memory writes C, Z and N alone. -/
theorem shiftFn_eq {p : Byte × Bool} {r : Byte} {carry n : Bool} (hp : p = (r, carry)) (hn : r.getLsbD 7 = n) (c : Cpu) :
    shiftFn p c = (r, { c with c := carry, z := r == 0, n := n }) := by
  rw [hp, ← hn]; rfl

/-- A shift of the accumulator writes A, C, Z and N alone. -/
theorem shiftA_eq {p : Byte × Bool} {r : Byte} {carry n : Bool} (hp : p = (r, carry)) (hn : r.getLsbD 7 = n) (c : Cpu) :
    shiftA p c = { c with a := r, c := carry, z := r == 0, n := n } := by
  rw [hp, ← hn]; rfl

/-! ### ASL, LSR, ROL, ROR (R229 to R232) -/

theorem aslForms_run (p : Place) : ∀ q ∈ aslForms p, FormRuns (modifyInstr aslFn p) q := by
  unfold aslForms
  split
  case h_5 => exact List.forall_mem_nil _
  all_goals exact formRuns_singleton rfl fun _ => rfl

theorem lsrForms_run (p : Place) : ∀ q ∈ lsrForms p, FormRuns (modifyInstr lsrFn p) q := by
  unfold lsrForms
  split
  case h_5 => exact List.forall_mem_nil _
  all_goals exact formRuns_singleton rfl fun _ => rfl

theorem rolForms_run (p : Place) : ∀ q ∈ rolForms p, FormRuns (modifyInstr rolFn p) q := by
  unfold rolForms
  split
  case h_5 => exact List.forall_mem_nil _
  all_goals exact formRuns_singleton rfl fun _ => rfl

theorem rorForms_run (p : Place) : ∀ q ∈ rorForms p, FormRuns (modifyInstr rorFn p) q := by
  unfold rorForms
  split
  case h_5 => exact List.forall_mem_nil _
  all_goals exact formRuns_singleton rfl fun _ => rfl

/-- Settles O16: each memory form is a read-modify-write instruction, each accumulator form an implied one; the byte and
the carry are those of the shift, exact by `aslByte_eq` to `rorByte_eq`. -/
theorem shiftsAndRotates : Obligations.ShiftsAndRotates := by
  refine ⟨
    (runsModify_of_modifyInstr (fun _ _ _ _ _ _ _ => rfl) aslForms_run).congr fun m => shiftFn_eq (aslByte_eq m) rfl,
    (runsModify_of_modifyInstr (fun _ _ _ _ _ _ _ => rfl) lsrForms_run).congr fun m =>
      shiftFn_eq (lsrByte_eq m) (lsr_getLsbD_seven m),
    (runsModify_of_modifyInstr (fun _ _ _ _ _ _ _ => rfl) rolForms_run).congr fun m c =>
      shiftFn_eq (rolByte_eq c.c m) rfl c,
    (runsModify_of_modifyInstr (fun _ _ _ _ _ _ _ => rfl) rorForms_run).congr fun m c =>
      shiftFn_eq (rorByte_eq c.c m) (ror_getLsbD_seven m c.c) c,
    .congr (fun c => shiftA_eq (aslByte_eq c.a) rfl c) ?_,
    .congr (fun c => shiftA_eq (lsrByte_eq c.a) (lsr_getLsbD_seven c.a) c) ?_,
    .congr (fun c => shiftA_eq (rolByte_eq c.c c.a) rfl c) ?_,
    .congr (fun c => shiftA_eq (rorByte_eq c.c c.a) (ror_getLsbD_seven c.a c.c) c) ?_⟩
  all_goals exact runsImplied_of_impliedInstr (fun _ _ _ _ _ _ => rfl) rfl fun _ => rfl

end Sys2Proof.Machine
end

section
/-! Bus cycles in order under changes of the registers: an operation over the bus and the stack is its list of cycles, then
one change of registers; and what its pushes leave. -/

namespace Sys2Proof.Machine

/-! ### Lists of cycles -/

theorem afterCycles_nil (s : State) : afterCycles [] s = s := List.foldl_nil

theorem afterCycles_cons (c : BusCycle) (cs : List BusCycle) (s : State) :
    afterCycles (c :: cs) s = afterCycles cs (c.after s) := List.foldl_cons

theorem BusCycle.after_read (a : Word) (s : State) : (BusCycle.read a).after s = (rd s a).2 := rfl

theorem BusCycle.after_write (a : Word) (v : Byte) (s : State) : (BusCycle.write a v).after s = wr s a v := rfl

/-- Reads alone: the registers and the spent cycles, in the form of the completion statements. -/
theorem onCpu_afterReads {f : Cpu → Cpu} (hf : RegOnly f) (as : List Word) (s : State) :
    onCpu f (afterReads as s) = (afterReads as s).withRegs (f s.cpu) as.length :=
  onCpu_eq_withRegs hf (readOnly_afterReads as s).cpu

/-- Reads alone, then registers: the completion statement of an instruction that writes nothing. -/
theorem completes_afterReads {f : Cpu → Cpu} (hf : RegOnly f) {i : Instr} {s : State} {as : List Word}
    (hx : exec i s = .next (onCpu f (afterReads as s))) :
    exec i s = .next ((afterReads as s).withRegs (f s.cpu) as.length) ∧
      MemFrame s ((afterReads as s).withRegs (f s.cpu) as.length) := by
  rw [← onCpu_afterReads hf]
  exact ⟨hx, (readOnly_afterReads as s).mem.onCpu f⟩

/-- Cycles none of which writes 0x4014 touch no register and no DMA request (R63). -/
theorem afterCycles_cpu {cs : List BusCycle} (h : ∀ v, .write 0x4014 v ∉ cs) (s : State) :
    (afterCycles cs s).cpu = s.cpu.spent cs.length (afterCycles cs s) := by
  induction cs generalizing s with
  | nil => rfl
  | cons c cs ih =>
    have hc : (c.after s).cpu = s.cpu.spent 1 (c.after s) := by
      cases c with
      | read a => exact rd_cpu s a
      | write a v =>
        have ha : a ≠ 0x4014 := fun e => h v (e ▸ List.mem_cons_self)
        have hw := wr_cpu s a v
        rwa [dmaAfter_of_ne v s.cpu ha] at hw
    have ht := ih (fun v hv => h v (List.mem_cons_of_mem c hv)) (c.after s)
    rw [hc, Cpu.spent_spent, Nat.add_comm] at ht
    exact ht

theorem onCpu_afterCycles {f : Cpu → Cpu} (hf : RegOnly f) {cs : List BusCycle} (h : ∀ v, .write 0x4014 v ∉ cs)
    (s : State) : onCpu f (afterCycles cs s) = (afterCycles cs s).withRegs (f s.cpu) cs.length :=
  onCpu_eq_withRegs hf (afterCycles_cpu h s)

/-- The register of a DMA request is no stack cell (R33, R63). -/
theorem dmaRegister_ne_stackAddr (p : Byte) : (0x4014 : Word) ≠ stackAddr p :=
  (stackAddr_ne p 0x4014 (by decide)).symm

/-- Bus cycles commute with a change of registers (R91). -/
theorem afterCycles_onCpu {f : Cpu → Cpu} (hf : RegOnly f) (cs : List BusCycle) (s : State) :
    afterCycles cs (onCpu f s) = onCpu f (afterCycles cs s) := by
  induction cs generalizing s with
  | nil => rfl
  | cons c cs ih =>
    have hc : c.after (onCpu f s) = onCpu f (c.after s) := by
      cases c with
      | read a => exact dummyRead_onCpu hf a s
      | write a v => exact wr_onCpu hf s a v
    exact (congrArg (afterCycles cs) hc).trans (ih _)

/-! ### Register writes of the stack and of PC -/

theorem onCpu_onCpu (f g : Cpu → Cpu) (s : State) : onCpu f (onCpu g s) = onCpu (fun c => f (g c)) s := rfl

theorem setS_setS (v w : Byte) (c : Cpu) : setS v (setS w c) = setS v c := rfl

theorem unpackP_setS (v w : Byte) (c : Cpu) : unpackP v (setS w c) = setS w (unpackP v c) := rfl

theorem setPc_setPc (v w : Word) (c : Cpu) : setPc v (setPc w c) = setPc v c := rfl

theorem regOnly_setS (v : Byte) : RegOnly (setS v) := fun _ _ _ _ _ _ => rfl

theorem regOnly_setPc (w : Word) : RegOnly (setPc w) := fun _ _ _ _ _ _ => rfl

theorem regOnly_setI (b : Bool) : RegOnly (setI b) := fun _ _ _ _ _ _ => rfl

theorem regOnly_unpackP (v : Byte) : RegOnly (unpackP v) := fun _ _ _ _ _ _ => rfl

/-! ### Dummy reads and pulls -/

theorem readPc_eq (s : State) : readPc s = (rd s s.cpu.pc).2 := rfl

theorem readStack_eq (s : State) : readStack s = (rd s (stackAddr s.cpu.s)).2 := rfl

theorem pull_snd (s : State) : (pull s).2 = onCpu (setS (s.cpu.s + 1)) (rd s (stackAddr (s.cpu.s + 1))).2 :=
  dummyRead_onCpu (regOnly_setS _) _ s

/-- The word that two pulls give: the low byte one above the stack pointer, the high byte two above (R82). -/
theorem pullWord_fst (s : State) :
    (pullWord s).1 =
      wordOf (Cells.read s.ram (stackCell (s.cpu.s + 2))) (Cells.read s.ram (stackCell (s.cpu.s + 1))) := by
  have hs : (pull s).2.cpu.s + 1 = s.cpu.s + 2 := by rw [pull_cpu]; exact BitVec.add_assoc ..
  unfold pullWord
  dsimp only
  rw [pull_fst, pull_fst, hs, (memFrame_pull s).ram]

theorem pullWord_snd (s : State) :
    (pullWord s).2 =
      onCpu (setS (s.cpu.s + 2)) (afterReads [stackAddr (s.cpu.s + 1), stackAddr (s.cpu.s + 2)] s) := by
  have h2 : s.cpu.s + 1 + 1 = s.cpu.s + 2 := BitVec.add_assoc ..
  unfold pullWord
  simp only [pull_snd, rd_onCpu (regOnly_setS _), onCpu_onCpu, setS_setS, onCpu_cpu, setS_s, h2, afterReads_cons,
    afterReads_nil]

/-- The return from a handler: flags, then PC, from the three bytes above the stack pointer (R246). -/
theorem returnFromHandler_eq (s : State) :
    returnFromHandler s = onCpu (fun c =>
        setPc (wordOf (Cells.read s.ram (stackCell (s.cpu.s + 3))) (Cells.read s.ram (stackCell (s.cpu.s + 2))))
          (setS (s.cpu.s + 3) (unpackP (Cells.read s.ram (stackCell (s.cpu.s + 1))) c)))
      (afterReads [stackAddr (s.cpu.s + 1), stackAddr (s.cpu.s + 2), stackAddr (s.cpu.s + 3)] s) := by
  have h2 : s.cpu.s + 1 + 1 = s.cpu.s + 2 := BitVec.add_assoc ..
  have h3 : s.cpu.s + 1 + 2 = s.cpu.s + 3 := BitVec.add_assoc ..
  unfold returnFromHandler
  simp only [pullWord_fst, pullWord_snd, pull_fst, pull_snd, afterReads_cons, afterReads_nil, rd_onCpu (regOnly_setS _),
    rd_onCpu (regOnly_unpackP _), onCpu_cpu, onCpu_ram, rd_ram, setS_s, unpackP_s, h2, h3]
  simp only [onCpu_onCpu, unpackP_setS, setS_setS]

/-! ### Pushes -/

theorem pushWord_eq_onCpu (w : Word) (s : State) :
    pushWord w s = onCpu (setS (s.cpu.s - 2))
      (afterCycles [.write (stackAddr s.cpu.s) (hiByte w), .write (stackAddr (s.cpu.s - 1)) (loByte w)] s) := by
  have h2 : s.cpu.s - 1 - 1 = s.cpu.s - 2 := BitVec.sub_sub ..
  simp only [pushWord, push_eq, wr_onCpu (regOnly_setS _), onCpu_onCpu, setS_setS, onCpu_cpu, setS_s, h2,
    afterCycles_cons, BusCycle.after_write, afterCycles_nil]

/-- The frame of a handler on the stack: a word, then a status byte (R410, R245). -/
def pushFrame (w : Word) (p : Byte) (s : State) : State := push p (pushWord w s)

theorem pushFrame_eq (w : Word) (p : Byte) (s : State) :
    pushFrame w p s = onCpu (setS (s.cpu.s - 3))
      (afterCycles [.write (stackAddr s.cpu.s) (hiByte w), .write (stackAddr (s.cpu.s - 1)) (loByte w),
        .write (stackAddr (s.cpu.s - 2)) p] s) := by
  have h3 : s.cpu.s - 2 - 1 = s.cpu.s - 3 := BitVec.sub_sub ..
  simp only [pushFrame, push_eq, pushWord_eq_onCpu, wr_onCpu (regOnly_setS _), onCpu_onCpu, setS_setS, onCpu_cpu,
    setS_s, h3, afterCycles_cons, BusCycle.after_write, afterCycles_nil]

theorem stackOnly_pushFrame (w : Word) (p : Byte) (s : State) : StackOnly s (pushFrame w p s) :=
  ((stackOnly_push _ s).trans (stackOnly_push _ _)).trans (stackOnly_push p _)

theorem pushFrame_ram (w : Word) (p : Byte) (s : State) :
    (pushFrame w p s).ram =
      Cells.write (Cells.write (Cells.write s.ram (stackCell s.cpu.s) (hiByte w)) (stackCell (s.cpu.s - 1)) (loByte w))
        (stackCell (s.cpu.s - 2)) p := by
  have hs : (pushWord w s).cpu.s = s.cpu.s - 2 := by rw [pushWord_eq_onCpu]; rfl
  rw [pushFrame, push_ram, hs, pushWord, push_ram, push_cpu, push_ram]
  rfl

/-- The three cells differ, so each holds the one byte pushed there. -/
theorem stacked_pushFrame (w : Word) (p : Byte) {s : State} (hs : Cells.wf s.ram) :
    Stacked w (some p) s (pushFrame w p s) := by
  have hcell10 : stackCell (s.cpu.s - 1) ≠ stackCell s.cpu.s := mt stackCell_inj.1 (by bv_omega)
  have hcell20 : stackCell (s.cpu.s - 2) ≠ stackCell s.cpu.s := mt stackCell_inj.1 (by bv_omega)
  have hcell21 : stackCell (s.cpu.s - 2) ≠ stackCell (s.cpu.s - 1) := mt stackCell_inj.1 (by bv_omega)
  intro k
  rw [pushFrame_ram, Cells.read_write (Cells.wf_write _ _ (Cells.wf_write _ _ hs)),
    Cells.read_write (Cells.wf_write _ _ hs), Cells.read_write hs]
  by_cases h2 : k = stackCell (s.cpu.s - 2)
  · simp only [h2, if_true, if_neg hcell20, if_neg hcell21]
  · by_cases h1 : k = stackCell (s.cpu.s - 1)
    · simp only [h1, if_true, if_neg hcell10, if_neg hcell21.symm]
    · simp only [if_neg h1, if_neg h2]

/-! ### Entering a handler -/

theorem vectorWord_congr {s t : State} (h : StackOnly s t) (a : Word) (b : Byte) :
    vectorWord t a b = vectorWord s a b := by
  rw [vectorWord, vectorWord, h.cpuRead, h.cpuRead]

theorem loadVector_eq {vector : Word} (s : State) (h : 0x8000 ≤ vector.toNat) (h' : vector.toNat < 0xFFFF) :
    loadVector vector s =
      onCpu (setPc (vectorWord s vector s.openBus)) (afterReads [vector, vector + 1] s) := by
  have hpc : (loadVector vector s).cpu.pc = vectorWord s vector s.openBus := by rw [loadVector_cpu vector s h h']; rfl
  rw [← hpc, afterReads_cons, afterReads_cons, afterReads_nil, loadVector, onCpu_cpu, setPc_pc]

/-- The status byte is stacked with the flags of before, since a push changes S alone. -/
theorem enterHandler_eq_loadVector (vector : Word) (b : Bool) (s : State) :
    enterHandler vector b s =
      loadVector vector (onCpu (setI true) (pushFrame s.cpu.pc (packP s.cpu b) s)) := by
  have hp : packP (pushWord s.cpu.pc s).cpu b = packP s.cpu b := by
    rw [pushWord, push_cpu, push_cpu]; rfl
  rw [enterHandler, hp, pushFrame]

/-- Entry to a handler as one list of cycles (R410, R245). -/
theorem enterHandler_eq {vector : Word} (b : Bool) (s : State) (h : 0x8000 ≤ vector.toNat)
    (h' : vector.toNat < 0xFFFF) :
    enterHandler vector b s =
      onCpu (fun c => setPc (vectorWord s vector (packP s.cpu b)) (setI true (setS (s.cpu.s - 3) c)))
        (afterCycles [.write (stackAddr s.cpu.s) (hiByte s.cpu.pc), .write (stackAddr (s.cpu.s - 1)) (loByte s.cpu.pc),
          .write (stackAddr (s.cpu.s - 2)) (packP s.cpu b), .read vector, .read (vector + 1)] s) := by
  have hbus : (pushFrame s.cpu.pc (packP s.cpu b) s).openBus = packP s.cpu b := push_openBus _ _
  rw [enterHandler_eq_loadVector, loadVector_eq _ h h', onCpu_openBus, hbus,
    vectorWord_congr ((stackOnly_pushFrame _ _ s).onCpu _), afterReads_onCpu (regOnly_setI true), pushFrame_eq,
    afterReads_onCpu (regOnly_setS _), onCpu_onCpu, onCpu_onCpu]
  simp only [afterReads_cons, afterReads_nil, afterCycles_cons, afterCycles_nil, BusCycle.after_read,
    BusCycle.after_write]

theorem stackOnly_enterHandler (vector : Word) (b : Bool) (s : State) : StackOnly s (enterHandler vector b s) := by
  rw [enterHandler_eq_loadVector]
  exact ((stackOnly_pushFrame _ _ s).onCpu _).trans (.of_mem (memFrame_loadVector vector _))

theorem stacked_enterHandler (vector : Word) (b : Bool) {s : State} (hs : Cells.wf s.ram) :
    Stacked s.cpu.pc (some (packP s.cpu b)) s (enterHandler vector b s) := by
  intro k
  rw [enterHandler_eq_loadVector, (memFrame_loadVector vector _).ram, onCpu_ram]
  exact stacked_pushFrame _ _ hs k

end Sys2Proof.Machine
end

section
/-! Control flow (44_control_flow.md): returns, branches, break; each is a list of bus cycles and one change of registers. -/

namespace Sys2Proof.Machine

/-! ### RTS and RTI (R236, R246) -/

/-- The two dummy reads, the word pulled, the read there (R236). -/
theorem exec_rts_eq (s : State) {w : Word}
    (hw : wordOf (Cells.read s.ram (stackCell (s.cpu.s + 2))) (Cells.read s.ram (stackCell (s.cpu.s + 1))) = w) :
    exec .rts s = .next (onCpu (fun c => setPc (w + 1) (setS (s.cpu.s + 2) c))
      (afterReads [s.cpu.pc, stackAddr s.cpu.s, stackAddr (s.cpu.s + 1), stackAddr (s.cpu.s + 2), w] s)) := by
  change execRts s = _
  unfold execRts
  simp only [readPc_eq, readStack_eq, pullWord_fst, pullWord_snd, rd_ram, rd_s, hw, onCpu_cpu, setPc_pc,
    rd_onCpu (regOnly_setPc _), rd_onCpu (regOnly_setS _), afterReads_cons, afterReads_nil]
  simp only [onCpu_onCpu, setPc_setPc]

/-- The two dummy reads, then the return from a handler (R246). -/
theorem exec_rti_eq (s : State) :
    exec .rti s = .next (onCpu (fun c =>
        setPc (wordOf (Cells.read s.ram (stackCell (s.cpu.s + 3))) (Cells.read s.ram (stackCell (s.cpu.s + 2))))
          (setS (s.cpu.s + 3) (unpackP (Cells.read s.ram (stackCell (s.cpu.s + 1))) c)))
      (afterReads [s.cpu.pc, stackAddr s.cpu.s, stackAddr (s.cpu.s + 1), stackAddr (s.cpu.s + 2), stackAddr (s.cpu.s + 3)]
        s)) := by
  change execRti s = _
  unfold execRti
  simp only [returnFromHandler_eq, readPc_eq, readStack_eq, rd_ram, rd_s, afterReads_cons, afterReads_nil]

/-- Settles O19: RTS and RTI are reads alone, then S, PC and, for RTI, the flags. -/
theorem returnsPullPc : Obligations.ReturnsPullPc :=
  ⟨⟨rfl, fun s => completes_afterReads (fun _ _ _ _ _ _ => rfl) (exec_rts_eq s rfl)⟩,
    ⟨rfl, fun s => completes_afterReads (fun _ _ _ _ _ _ => rfl) (exec_rti_eq s)⟩⟩

/-! ### The eight branches (R237 to R244, R233) -/

/-- The displacement is signed (R233). -/
theorem branchTarget_eq (pc : Word) (off : Byte) : branchTarget pc off = BitVec.ofInt 16 (pc.toNat + off.toInt) := by
  rw [BitVec.ofInt_add, BitVec.ofInt_natCast, BitVec.ofNat_toNat, BitVec.setWidth_eq]
  rfl

theorem branchOn_false (off : Byte) (s : State) : branchOn false off s = s := rfl

/-- A taken branch: one dummy read, and one more where the target lies in another page (R233). -/
theorem branchOn_true (off : Byte) (s : State) {target : Word} (ht : branchTarget s.cpu.pc off = target) :
    branchOn true off s = onCpu (setPc target) (afterReads ([s.cpu.pc] ++
      if hiByte target = hiByte s.cpu.pc then [] else [wordOf (hiByte s.cpu.pc) (loByte target)]) s) := by
  unfold branchOn
  dsimp only
  rw [if_pos rfl, ht, afterReads_append, afterReads_one]
  by_cases hpage : hiByte target = hiByte s.cpu.pc
  · rw [if_neg (not_not_intro hpage), if_pos hpage, afterReads_nil, readPc]
  · rw [if_pos hpage, if_neg hpage, afterReads_one, readPc]

theorem runsBranch_of_branchOn {op : Byte} {mk : Byte → Instr} {cond : Cpu → Bool}
    (he : ∀ off, encode (mk off) = [op, off])
    (hx : ∀ (off : Byte) (s : State), exec (mk off) s = .next (branchOn (cond s.cpu) off s)) :
    RunsBranch op mk cond := by
  refine fun off s => ⟨he off, fun hc => ?_, fun hc => ?_⟩
  · rw [hx, hc, branchOn_false]
  · refine completes_afterReads (regOnly_setPc _) ?_
    rw [hx, hc, branchOn_true off s (branchTarget_eq _ off)]

/-- Settles O20: each is `branchOn` of its flag. -/
theorem branchesTakeTheirTarget : Obligations.BranchesTakeTheirTarget := by
  refine ⟨?_, ?_, ?_, ?_, ?_, ?_, ?_, ?_⟩
  all_goals exact runsBranch_of_branchOn (fun _ => rfl) fun _ _ => rfl

/-! ### BRK (R245) -/

theorem fetch_snd (s : State) : (fetch s).2 = onCpu (setPc (s.cpu.pc + 1)) (rd s s.cpu.pc).2 := by
  unfold fetch
  dsimp only
  rw [rd_pc]

theorem memFrame_fetch (s : State) : MemFrame s (fetch s).2 := by
  rw [fetch_snd]
  exact (memFrame_rd s _).onCpu _

theorem fetch_pc (s : State) : (fetch s).2.cpu.pc = s.cpu.pc + 1 := by simp [fetch_snd]

theorem fetch_s (s : State) : (fetch s).2.cpu.s = s.cpu.s := by simp [fetch_snd]

theorem packP_fetch (s : State) (b : Bool) : packP (fetch s).2.cpu b = packP s.cpu b := by simp [fetch_snd, packP]

/-- The padding byte fetched, then the entry with B = 1, as one list of cycles (R245). -/
theorem enterHandler_fetch_eq (s : State) :
    enterHandler vecIrq true (fetch s).2 =
      (afterCycles [.read s.cpu.pc, .write (stackAddr s.cpu.s) (hiByte (s.cpu.pc + 1)),
        .write (stackAddr (s.cpu.s - 1)) (loByte (s.cpu.pc + 1)), .write (stackAddr (s.cpu.s - 2)) (packP s.cpu true),
        .read 0xFFFE, .read 0xFFFF] s).withRegs
        { s.cpu with s := s.cpu.s - 3, i := true, pc := vectorWord s 0xFFFE (packP s.cpu true) } 6 := by
  have hvec : vecIrq + 1 = 0xFFFF := rfl
  rw [enterHandler_eq true _ (by decide) (by decide), fetch_pc, fetch_s, packP_fetch,
    vectorWord_congr (.of_mem (memFrame_fetch s)), fetch_snd, afterCycles_onCpu (regOnly_setPc _), hvec, vecIrq,
    onCpu_onCpu, ← BusCycle.after_read, ← afterCycles_cons]
  refine onCpu_afterCycles (fun _ _ _ _ _ _ => rfl) (fun v => ?_) s
  simp only [List.mem_cons, List.not_mem_nil, BusCycle.write.injEq, reduceCtorEq, dmaRegister_ne_stackAddr, false_and,
    or_self, not_false_eq_true]

/-- Settles O21: BRK fetches its padding byte and enters the handler of vector 0xFFFE with B = 1. -/
theorem brkEntersTheHandler : Obligations.BrkEntersTheHandler := by
  refine ⟨rfl, fun s => ?_⟩
  have hf := memFrame_fetch s
  dsimp only
  rw [← enterHandler_fetch_eq]
  refine ⟨rfl, (StackOnly.of_mem hf).trans (stackOnly_enterHandler vecIrq true _), fun hs k => ?_⟩
  have hstack := stacked_enterHandler vecIrq true (s := (fetch s).2) (by rw [hf.ram]; exact hs.ram.1) k
  rwa [fetch_pc, fetch_s, packP_fetch, hf.ram] at hstack

end Sys2Proof.Machine
end

section
/-! Stack, flags, no-operation (45_stack_flags_nop.md): a push is two bus cycles, a pull three reads, each with one change
of registers; a flag instruction or a no-operation is its shape. -/

namespace Sys2Proof.Machine

/-! ### Pushes (R247, R248) -/

/-- The dummy read and the push as one list of cycles (R170, R247). -/
theorem push_readPc_eq (v : Byte) (s : State) :
    push v (readPc s) =
      (afterCycles [.read s.cpu.pc, .write (stackAddr s.cpu.s) v] s).withRegs { s.cpu with s := s.cpu.s - 1 } 2 := by
  have hcycles : push v (readPc s) =
      onCpu (setS (s.cpu.s - 1)) (afterCycles [.read s.cpu.pc, .write (stackAddr s.cpu.s) v] s) := by
    simp only [push_eq, readPc_eq, rd_s, afterCycles_cons, BusCycle.after_read, BusCycle.after_write, afterCycles_nil]
  have hdma : ∀ b, BusCycle.write 0x4014 b ∉ [.read s.cpu.pc, .write (stackAddr s.cpu.s) v] := fun b => by
    simp only [List.mem_cons, List.not_mem_nil, BusCycle.write.injEq, reduceCtorEq, dmaRegister_ne_stackAddr,
      false_and, or_self, not_false_eq_true]
  exact hcycles.trans (onCpu_afterCycles (regOnly_setS _) hdma s)

theorem stackOnly_push_readPc (v : Byte) (s : State) : StackOnly s (push v (readPc s)) :=
  (StackOnly.of_mem (memFrame_rd s s.cpu.pc)).trans (stackOnly_push v _)

/-- Of RAM, one cell: that of the old stack pointer. -/
theorem push_readPc_read_ram (v : Byte) {s : State} (hs : Cells.wf s.ram) (k : Nat) :
    Cells.read (push v (readPc s)).ram k = if k = stackCell s.cpu.s then v else Cells.read s.ram k := by
  rw [push_ram, readPc_eq, rd_s, rd_ram, Cells.read_write hs]

/-- The completion statement of an instruction that pushes one byte. -/
theorem completes_push {i : Instr} {s : State} {v : Byte} (hx : exec i s = .next (push v (readPc s))) :
    let u := afterCycles [.read s.cpu.pc, .write (stackAddr s.cpu.s) v] s
    let t := u.withRegs { s.cpu with s := s.cpu.s - 1 } 2
    exec i s = .next t ∧ StackOnly s t ∧
      (s.Inv → ∀ k, Cells.read t.ram k = if k = stackCell s.cpu.s then v else Cells.read s.ram k) := by
  dsimp only
  rw [← push_readPc_eq]
  exact ⟨hx, stackOnly_push_readPc v s, fun hs => push_readPc_read_ram v hs.ram.1⟩

/-! ### Pulls (R249, R250) -/

/-- The reads of PLA and PLP: the two dummy reads, then the pull (R170, R249). -/
def pullReads (s : State) : List Word := [s.cpu.pc, stackAddr s.cpu.s, stackAddr (s.cpu.s + 1)]

theorem pull_readStack_fst (s : State) :
    (pull (readStack (readPc s))).1 = Cells.read s.ram (stackCell (s.cpu.s + 1)) := by
  simp only [pull_fst, readPc_eq, readStack_eq, rd_ram, rd_s]

theorem pull_readStack_snd (s : State) :
    (pull (readStack (readPc s))).2 = onCpu (setS (s.cpu.s + 1)) (afterReads (pullReads s) s) := by
  simp only [pull_snd, readPc_eq, readStack_eq, rd_s, pullReads, afterReads_cons, afterReads_nil]

/-- The byte one above the stack pointer into A, with Z and N (R249). -/
theorem exec_pla_eq (s : State) :
    exec .pla s = .next (onCpu (fun c => loadA (Cells.read s.ram (stackCell (s.cpu.s + 1))) (setS (s.cpu.s + 1) c))
      (afterReads (pullReads s) s)) := by
  change execPla s = _
  unfold execPla
  simp only [pull_readStack_fst, pull_readStack_snd, onCpu_onCpu]

/-- The byte one above the stack pointer into the flags (R250). -/
theorem exec_plp_eq (s : State) :
    exec .plp s = .next (onCpu (fun c => unpackP (Cells.read s.ram (stackCell (s.cpu.s + 1))) (setS (s.cpu.s + 1) c))
      (afterReads (pullReads s) s)) := by
  change execPlp s = _
  unfold execPlp
  simp only [pull_readStack_fst, pull_readStack_snd, onCpu_onCpu]

/-- Settles O23: PHA and PHP are a dummy read and a push, PLA and PLP reads alone, then S and A or the flags. -/
theorem pushesAndPulls : Obligations.PushesAndPulls := by
  refine ⟨?_, rfl, rfl, fun s => ?_⟩
  · intro op i v h
    simp only [List.mem_cons, List.not_mem_nil, or_false, Prod.mk.injEq] at h
    obtain ⟨rfl, rfl, rfl⟩ | ⟨rfl, rfl, rfl⟩ := h
    all_goals exact ⟨rfl, fun s => completes_push rfl⟩
  · obtain ⟨hpla, hplaMem⟩ := completes_afterReads (fun _ _ _ _ _ _ => rfl) (exec_pla_eq s)
    obtain ⟨hplp, hplpMem⟩ := completes_afterReads (fun _ _ _ _ _ _ => rfl) (exec_plp_eq s)
    exact ⟨hpla, hplaMem, hplp, hplpMem⟩

/-! ### One flag each (R251 to R257) -/

/-- Settles O24: each is an implied instruction that writes its flag. -/
theorem flagInstructionsSetOneFlag : Obligations.FlagInstructionsSetOneFlag := by
  refine ⟨?_, ?_, ?_, ?_, ?_, ?_, ?_⟩
  all_goals exact runsImplied_of_impliedInstr (fun _ _ _ _ _ _ => rfl) rfl fun _ => rfl

/-! ### No-operations (R258, R273) -/

theorem onCpu_id (s : State) : onCpu id s = s := rfl

/-- The dummy read of PC alone: an implied instruction that writes no register (R258). -/
theorem runsImplied_id_of_readPc {op : Byte} {i : Instr} (he : encode i = [op])
    (hx : ∀ s : State, exec i s = .next (readPc s)) : RunsImplied op i id := by
  refine runsImplied_of_impliedInstr (fun _ _ _ _ _ _ => rfl) he fun s => ?_
  rw [hx, impliedInstr, onCpu_id]

theorem formRuns_cons {g : State → State} {op : Byte} {i : Instr} {qs : List (Byte × Instr)}
    (he : (encode i).head? = some op) (hx : ∀ s : State, exec i s = .next (g s)) (hqs : ∀ q ∈ qs, FormRuns g q) :
    ∀ q ∈ (op, i) :: qs, FormRuns g q :=
  List.forall_mem_cons.2 ⟨⟨he, hx⟩, hqs⟩

theorem nopForms_run (o : Source) : ∀ q ∈ nopForms o, FormRuns (readInstr nopFn o) q := by
  unfold nopForms
  split
  all_goals
    repeat refine formRuns_cons rfl (fun _ => rfl) ?_
    exact List.forall_mem_nil _

/-- Settles O25: the seven without operand are implied instructions, the other forms read instructions, that write no
register. -/
theorem nopsChangeNothing : Obligations.NopsChangeNothing := by
  refine ⟨?_, ?_, ?_, ?_, ?_, ?_, ?_,
    (runsRead_of_readInstr (fun _ _ _ _ _ _ _ => rfl) nopForms_run).congr fun _ _ => rfl⟩
  all_goals exact runsImplied_id_of_readPc rfl fun _ => rfl

end Sys2Proof.Machine
end

section
/-! The unofficial read-modify-write instructions (46_unofficial.md): a shift or a count of memory, then an operation of A
with the byte stored. Each table has seven forms: no mnemonic has a zero page,Y form (R260 to R263, R266, R267). -/

namespace Sys2Proof.Machine

/-! ### Forms -/

theorem sloForms_run (p : Place) : ∀ q ∈ sloForms p, FormRuns (modifyInstr sloFn p) q := by
  cases p with
  | zpy _ => exact List.forall_mem_nil _
  | _ => exact formRuns_singleton rfl fun _ => rfl

theorem rlaForms_run (p : Place) : ∀ q ∈ rlaForms p, FormRuns (modifyInstr rlaFn p) q := by
  cases p with
  | zpy _ => exact List.forall_mem_nil _
  | _ => exact formRuns_singleton rfl fun _ => rfl

theorem sreForms_run (p : Place) : ∀ q ∈ sreForms p, FormRuns (modifyInstr sreFn p) q := by
  cases p with
  | zpy _ => exact List.forall_mem_nil _
  | _ => exact formRuns_singleton rfl fun _ => rfl

theorem rraForms_run (p : Place) : ∀ q ∈ rraForms p, FormRuns (modifyInstr rraFn p) q := by
  cases p with
  | zpy _ => exact List.forall_mem_nil _
  | _ => exact formRuns_singleton rfl fun _ => rfl

theorem dcpForms_run (p : Place) : ∀ q ∈ dcpForms p, FormRuns (modifyInstr dcpFn p) q := by
  cases p with
  | zpy _ => exact List.forall_mem_nil _
  | _ => exact formRuns_singleton rfl fun _ => rfl

theorem iscForms_run (p : Place) : ∀ q ∈ iscForms p, FormRuns (modifyInstr iscFn p) q := by
  cases p with
  | zpy _ => exact List.forall_mem_nil _
  | _ => exact formRuns_singleton rfl fun _ => rfl

/-! ### SLO, RLA, SRE, RRA (R260 to R263) -/

/-- The carry of a halved byte, as the adder counts it (R263). -/
theorem decide_odd_toNat (n : Nat) : (decide (n % 2 = 1)).toNat = n % 2 := by
  rw [← Nat.testBit_zero, Nat.toNat_testBit, Nat.pow_zero, Nat.div_one]

/-- Settles O26: each form is a read-modify-write instruction; the shift is exact by `aslByte_eq` to `rorByte_eq`, and the
carry that RRA's addition counts is the bit that its rotate shifted out. -/
theorem shiftAndOperate : Obligations.ShiftAndOperate := by
  refine ⟨.congr (fun m c => ?_) (runsModify_of_modifyInstr (fun _ _ _ _ _ _ _ => rfl) sloForms_run),
    .congr (fun m c => ?_) (runsModify_of_modifyInstr (fun _ _ _ _ _ _ _ => rfl) rlaForms_run),
    .congr (fun m c => ?_) (runsModify_of_modifyInstr (fun _ _ _ _ _ _ _ => rfl) sreForms_run),
    .congr (fun m c => ?_) (runsModify_of_modifyInstr (fun _ _ _ _ _ _ _ => rfl) rraForms_run)⟩
  · rw [sloFn, aslByte_eq]; rfl
  · rw [rlaFn, rolByte_eq]; rfl
  · rw [sreFn, lsrByte_eq]; rfl
  · rw [rraFn, rorByte_eq]
    dsimp only
    rw [addToA_eq, setC_a, setC_c, decide_odd_toNat]
    rfl

/-! ### DCP and ISC (R266, R267) -/

/-- Settles O27: each form is a read-modify-write instruction; DCP writes the flags of `compareFlags`, ISC is exact by
`subtractFromA_eq`. -/
theorem countAndOperate : Obligations.CountAndOperate :=
  ⟨runsModify_of_modifyInstr (fun _ _ _ _ _ _ _ => rfl) dcpForms_run,
    (runsModify_of_modifyInstr (fun _ _ _ _ _ _ _ => rfl) iscForms_run).congr fun m c =>
      congrArg (Prod.mk (m + 1)) (subtractFromA_eq (m + 1) c)⟩

end Sys2Proof.Machine
end

section
/-! The unofficial loads, stores and immediates (46_unofficial.md): the forms of each mnemonic run the shape of a read
instruction or of a store. -/

namespace Sys2Proof.Machine

/-! ### SAX, LAX, LAS (R264, R265, R280) -/

theorem saxForms_run (p : Place) : ∀ q ∈ saxForms p, FormRuns (storeInstr andAX p) q := by
  cases p with
  | zpx _ | abx _ | aby _ | izy _ => exact List.forall_mem_nil _
  | _ => exact formRuns_singleton rfl fun _ => rfl

theorem laxForms_run (o : Source) : ∀ q ∈ laxForms o, FormRuns (readInstr laxFn o) q := by
  cases o with
  | imm _ => exact List.forall_mem_nil _
  | mem p =>
    cases p with
    | zpx _ | abx _ => exact List.forall_mem_nil _
    | _ => exact formRuns_singleton rfl fun _ => rfl

theorem lasForms_run (o : Source) : ∀ q ∈ lasForms o, FormRuns (readInstr lasFn o) q := by
  cases o with
  | imm _ => exact List.forall_mem_nil _
  | mem p =>
    cases p with
    | aby _ => exact formRuns_singleton rfl fun _ => rfl
    | _ => exact List.forall_mem_nil _

/-- Settles O28: SAX is a store of A AND X, LAX and LAS are read instructions. -/
theorem unofficialLoadsAndStores : Obligations.UnofficialLoadsAndStores :=
  ⟨runsStore_of_storeInstr saxForms_run, runsRead_of_readInstr (fun _ _ _ _ _ _ _ => rfl) laxForms_run,
    runsRead_of_readInstr (fun _ _ _ _ _ _ _ => rfl) lasForms_run⟩

/-! ### ANC, ALR, ARR, AXS, ANE, LXA (R268 to R271, R274, R275) -/

theorem ancForms_run (o : Source) : ∀ q ∈ ancForms o, FormRuns (readInstr ancFn o) q := by
  cases o with
  | imm _ => exact formRuns_cons rfl (fun _ => rfl) (formRuns_singleton rfl fun _ => rfl)
  | mem _ => exact List.forall_mem_nil _

theorem alrForms_run (o : Source) : ∀ q ∈ alrForms o, FormRuns (readInstr alrFn o) q := by
  cases o with
  | imm _ => exact formRuns_singleton rfl fun _ => rfl
  | mem _ => exact List.forall_mem_nil _

theorem arrForms_run (o : Source) : ∀ q ∈ arrForms o, FormRuns (readInstr arrFn o) q := by
  cases o with
  | imm _ => exact formRuns_singleton rfl fun _ => rfl
  | mem _ => exact List.forall_mem_nil _

theorem axsForms_run (o : Source) : ∀ q ∈ axsForms o, FormRuns (readInstr axsFn o) q := by
  cases o with
  | imm _ => exact formRuns_singleton rfl fun _ => rfl
  | mem _ => exact List.forall_mem_nil _

/-- Bit 7 of a byte shifted right is 0, and bit 0 of what it was leaves to C (R269). -/
theorem alrFn_eq (m : Byte) (c : Cpu) :
    alrFn m c =
      let r := BitVec.ofNat 8 ((c.a &&& m).toNat / 2)
      { c with a := r, c := (c.a &&& m).getLsbD 0, z := r == 0, n := false } := by
  rw [getLsbD_zero]
  exact shiftA_eq (lsrByte_eq _) (lsr_getLsbD_seven _) c

theorem arrFn_eq (m : Byte) (c : Cpu) :
    arrFn m c =
      let r := BitVec.ofNat 8 ((c.a &&& m).toNat / 2 + 128 * c.c.toNat)
      setV (xor (r.getLsbD 6) (r.getLsbD 5)) (setC (r.getLsbD 6) (loadA r c)) := by
  rw [arrFn, rorByte_eq]

/-- Settles O29: the immediates of each table are read instructions, ALR and ARR exact by `lsrByte_eq` and `rorByte_eq`;
ANE and LXA take their constant from the chip. -/
theorem unofficialImmediates : Obligations.UnofficialImmediates :=
  ⟨runsRead_of_readInstr (fun _ _ _ _ _ _ _ => rfl) ancForms_run,
    (runsRead_of_readInstr (fun _ _ _ _ _ _ _ => rfl) alrForms_run).congr alrFn_eq,
    (runsRead_of_readInstr (fun _ _ _ _ _ _ _ => rfl) arrForms_run).congr arrFn_eq,
    runsRead_of_readInstr (fun _ _ _ _ _ _ _ => rfl) axsForms_run, fun _ _ => ⟨rfl, rfl⟩, fun _ _ => ⟨rfl, rfl⟩⟩

end Sys2Proof.Machine
end

section
/-! The StoreHigh shape (R259): its cycles and its address in terms of `effectiveAddr` and `addressReads`, what it leaves,
and the four instructions that run it. -/

namespace Sys2Proof.Machine

/-! ### The address cycles as a list of reads (R172 to R181) -/

/-- The address before the index is that of the registers and RAM at the start: the cycles that form it are reads. -/
theorem baseOf_fst (p : Place) (s : State) : (baseOf p s).1 = baseAddr p s := by
  cases p with
  | izx z => exact (readPointer_fst _ _).trans (zeroPageWord_congr (memFrame_dummyRead _ s).ram _)
  | izy z => exact readPointer_fst z s
  | _ => rfl

theorem addressCycles_fst (k : Kind) (p : Place) (s : State) : (addressCycles k p s).1 = effectiveAddr p s := by
  cases p with
  | izx z => exact baseOf_fst (.izx z) s
  | izy z => exact congrArg (indexedAddr · s.cpu.y) (baseOf_fst (.izy z) s)
  | _ => rfl

theorem addressCycles_snd (k : Kind) (p : Place) (s : State) :
    (addressCycles k p s).2 = afterReads (addressReads k p s) s := by
  cases p with
  | zp _ | abs _ => exact (afterReads_nil s).symm
  | zpx z | zpy z => exact (afterReads_one _ s).symm
  | abx w => exact indexCycle_eq k w s.cpu.x s
  | aby w => exact indexCycle_eq k w s.cpu.y s
  | izx z =>
    unfold addressCycles
    dsimp only [indexOf, baseOf, addressReads]
    rw [readPointer_eq, dummyRead, ← afterReads_cons, zeroPage, zeroPage, zeroPage]
  | izy z =>
    have hbase : (baseOf (.izy z) s).2 = afterReads [zeroPage z, zeroPage (z + 1)] s := by rw [baseOf, readPointer_eq]
    unfold addressCycles
    dsimp only [indexOf, addressReads]
    rw [indexCycle_eq, baseOf_fst, hbase, afterReads_append]
    rfl

/-! ### One write after the address cycles, at any address -/

theorem wr_addressCycles_cpu (p : Place) (a : Word) (v : Byte) (s : State) :
    (wr (addressCycles .write p s).2 a v).cpu =
      (dmaAfter a v s.cpu).spent (remainingCycles .write p s) (wr (addressCycles .write p s).2 a v) := by
  have hcycles : remainingCycles .write p s - 1 + 1 = remainingCycles .write p s :=
    Nat.sub_add_cancel (accessCycles_le_remainingCycles .write p s)
  have hw := wr_cpu (addressCycles .write p s).2 a v
  rw [(readOnly_addressCycles .write p s).cpu, dmaAfter_spent, Cpu.spent_spent] at hw
  rw [← hcycles]
  exact hw

theorem stored_wr_addressCycles (p : Place) (a : Word) (v : Byte) {s : State} (hs : s.Inv) :
    Stored a v s (wr (addressCycles .write p s).2 a v) :=
  .of_mem (readOnly_addressCycles .write p s).mem (stored_wr a v (inv_addressCycles .write p hs)) (.refl _)

/-! ### The shape -/

/-- `StoreHigh` in a mode with a carrying index: the address cycles of a write, then the one write (R259). -/
theorem storeHigh_eq {p : Place} {index : Byte} {s : State} (hi : indexOf p s.cpu = some index) (r : Byte) :
    storeHigh p r s =
      wr (addressCycles .write p s).2
        (if crossed p s then wordOf (hiByte (effectiveAddr p s) &&& r) (loByte (effectiveAddr p s))
          else effectiveAddr p s)
        (r &&& (hiByte (baseAddr p s) + 1)) := by
  have hea : indexedAddr (baseOf p s).1 index = effectiveAddr p s := by
    rw [← addressCycles_fst .write, addressCycles, hi]
  have hcrossed : crossesPage (baseOf p s).1 index = crossed p s := by rw [crossed, hi]
  unfold storeHigh storeHighAddr storeHighByte addressCycles
  rw [hi]
  dsimp only [Option.getD_some]
  rw [hea, hcrossed, baseOf_fst]

/-- The form `q` of a StoreHigh table: its mode has a carrying index, and it runs `StoreHigh` with the register byte `r`,
then the register write `g`. -/
def StoresHigh (p : Place) (r : Cpu → Byte) (g : Cpu → Cpu) (q : Byte × Instr) : Prop :=
  (∀ c, ∃ index, indexOf p c = some index) ∧ FormRuns (fun s => onCpu g (storeHigh p (r s.cpu) s)) q

/-- A `StoreHigh` that writes no register. -/
theorem storesHigh_singleton {p : Place} {r : Cpu → Byte} {op : Byte} {i : Instr}
    (hindex : ∀ c, ∃ index, indexOf p c = some index) (he : (encode i).head? = some op)
    (hx : ∀ s : State, exec i s = .next (storeHigh p (r s.cpu) s)) : ∀ q ∈ [(op, i)], StoresHigh p r id q :=
  List.forall_mem_singleton.2 ⟨hindex, he, fun s => (hx s).trans (congrArg Host.Outcome.next (onCpu_id _).symm)⟩

/-- The address cycles, then one write, then the registers (R259). -/
theorem runsStoreHigh_of_storesHigh {forms : Place → List (Byte × Instr)} {r : Cpu → Byte} {g : Cpu → Cpu}
    (hg : RegOnly g) (hx : ∀ p, ∀ q ∈ forms p, StoresHigh p r g q) : RunsStoreHigh forms r g := by
  intro p q hq
  obtain ⟨hindex, hop, hexec⟩ := hx p q hq
  refine ⟨hop, fun s => ?_⟩
  obtain ⟨index, hi⟩ := hindex s.cpu
  have hrun := hexec s
  dsimp only at hrun ⊢
  rw [storeHigh_eq hi] at hrun
  rw [← addressCycles_snd, ← hg.map_dmaAfter, ← onCpu_eq_withRegs hg (wr_addressCycles_cpu p _ _ s)]
  exact ⟨hrun, fun hs => (stored_wr_addressCycles p _ _ hs).onCpu g⟩

/-! ### SHA, SHX, SHY, TAS (R276 to R279) -/

theorem shaForms_storeHigh (p : Place) : ∀ q ∈ shaForms p, StoresHigh p andAX id q := by
  cases p with
  | aby _ | izy _ => exact storesHigh_singleton (fun _ => ⟨_, rfl⟩) rfl fun _ => rfl
  | _ => exact List.forall_mem_nil _

theorem shxForms_storeHigh (p : Place) : ∀ q ∈ shxForms p, StoresHigh p (fun c => c.x) id q := by
  cases p with
  | aby _ => exact storesHigh_singleton (fun _ => ⟨_, rfl⟩) rfl fun _ => rfl
  | _ => exact List.forall_mem_nil _

theorem shyForms_storeHigh (p : Place) : ∀ q ∈ shyForms p, StoresHigh p (fun c => c.y) id q := by
  cases p with
  | abx _ => exact storesHigh_singleton (fun _ => ⟨_, rfl⟩) rfl fun _ => rfl
  | _ => exact List.forall_mem_nil _

/-- A change of registers that leaves the index alone commutes with a `StoreHigh` of mode absolute,Y. -/
theorem storeHigh_aby_onCpu {f : Cpu → Cpu} (hf : RegOnly f) (hy : ∀ c, (f c).y = c.y) (w : Word) (r : Byte)
    (s : State) : storeHigh (.aby w) r (onCpu f s) = onCpu f (storeHigh (.aby w) r s) := by
  unfold storeHigh
  dsimp only [baseOf, indexOf, Option.getD_some, onCpu_cpu]
  rw [hy, indexCycle_eq, indexCycle_eq, afterReads_onCpu hf, wr_onCpu hf]

/-- `S <- A & X`, the register write of TAS (R279). -/
def setSAndAX (c : Cpu) : Cpu := setS (andAX c) c

theorem regOnly_setSAndAX : RegOnly setSAndAX := fun _ _ _ _ _ _ => rfl

/-- S set before the cycles of TAS, or after them (R279): its cycles do not look at S. -/
theorem tas_aby_eq (w : Word) (s : State) :
    tas (.aby w) s = onCpu setSAndAX (storeHigh (.aby w) (andAX s.cpu) s) :=
  storeHigh_aby_onCpu regOnly_setSAndAX (fun _ => rfl) w (andAX s.cpu) s

theorem tasForms_storeHigh (p : Place) : ∀ q ∈ tasForms p, StoresHigh p andAX setSAndAX q := by
  cases p with
  | aby w =>
    exact List.forall_mem_singleton.2 ⟨fun _ => ⟨_, rfl⟩, rfl, fun s => congrArg Host.Outcome.next (tas_aby_eq w s)⟩
  | _ => exact List.forall_mem_nil _

/-- Settles O30: each form is a `StoreHigh` of its register byte; TAS also writes S. -/
theorem storeHighInstructions : Obligations.StoreHighInstructions :=
  ⟨runsStoreHigh_of_storesHigh (fun _ _ _ _ _ _ => rfl) shaForms_storeHigh,
    runsStoreHigh_of_storesHigh (fun _ _ _ _ _ _ => rfl) shxForms_storeHigh,
    runsStoreHigh_of_storesHigh (fun _ _ _ _ _ _ => rfl) shyForms_storeHigh,
    runsStoreHigh_of_storesHigh regOnly_setSAndAX tasForms_storeHigh⟩

end Sys2Proof.Machine
end

section
/-! The processor halted (46_unofficial.md R281, 60_exceptions.md R416): JAM is an implied instruction, and a step of a
halted processor is one read cycle between two boundaries. -/

namespace Sys2Proof.Machine

/-! ### The other units see of the processor its cycle count alone -/

/-- The dots see nothing of the processor, the audio tick its cycle count (R622). -/
theorem unitsCycle_of_cycles_eq {s : State} {c : Cpu} (h : c.cycles = s.cpu.cycles) :
    unitsCycle { s with cpu := c } =
      { unitsCycle s with cpu := { c with cycles := c.cycles + 1, tick := c.tick + 1 } } := by
  have hdots : ppuDot (ppuDot (ppuDot (countCycle { s with cpu := c }))) =
      { ppuDot (ppuDot (ppuDot (countCycle s))) with cpu := { c with cycles := c.cycles + 1, tick := c.tick + 1 } } :=
    (cpuBlind_ppuDot.comp (cpuBlind_ppuDot.comp cpuBlind_ppuDot)) (countCycle s) _
  have hcycles : (ppuDot (ppuDot (ppuDot (countCycle s)))).cpu.cycles = c.cycles + 1 := by
    rw [(dotFrame_threeDots _).cpu, h]
    rfl
  unfold unitsCycle
  rw [hdots, mapperCycle_eq, mapperCycle_eq]
  simp only [apuTick, hcycles]

theorem endStep_tick_endStep (s : State) : endStep (tick (endStep s)) = endStep (tick s) := by
  have hunits : unitsCycle (endStep s) = _ := unitsCycle_of_cycles_eq (s := s) (c := (endStep s).cpu) rfl
  have hcpu := unitsCycle_cpu s
  unfold tick
  rw [hunits]
  generalize unitsCycle s = u at hcpu ⊢
  simp only [endStep, onCpu, observeNmi, hcpu]

/-- What a boundary clears, `tick` and the scratch cells, a read cycle between two boundaries does not see (R40). -/
theorem endStep_rd_endStep (s : State) (a : Word) : endStep (rd (endStep s) a).2 = endStep (rd s a).2 := by
  have hread : busRead (endStep s) a = ((busRead s a).1, endStep (busRead s a).2) := busRead_onCpu _ s a
  rw [rd_snd, rd_snd, hread, endStep_tick_endStep]

/-! ### The jammed step (R416) -/

theorem boundaryChoice_of_jammed {s : State} (h : s.cpu.jammed = true) : boundaryChoice s = .jammed := if_pos h

theorem step_of_jammed {s : State} (h : s.cpu.jammed = true) : step s = .next (endStep (rd s 0xFFFF).2) := by
  have hchoice : boundaryChoice (endStep s) = .jammed := boundaryChoice_of_jammed h
  rw [step, stepInstruction, ← endStep_rd_endStep, hchoice]
  rfl

/-- A read cycle's end of step: no register of before has changed (R40, R404). -/
theorem endStep_rd_eq (s : State) (a : Word) :
    endStep (rd s a).2 = { (rd s a).2 with cpu := s.cpu.ended 1 (rd s a).2 (endStep (rd s a).2) } := by
  have h := rd_cpu s a
  rw [endStep, onCpu_eq, Cpu.ended, ← h]

/-- A waiting NMI is not lost during a read cycle (R39). -/
theorem endStep_rd_nmiPending {s : State} (a : Word) (h : s.cpu.nmiPending = true) :
    (endStep (rd s a).2).cpu.nmiPending = true := by
  rw [endStep, onCpu_cpu, rd_snd, tick_nmiPending, busRead_cpu, h, Bool.true_or]

/-- Settles O31: each JAM is an implied instruction that sets the latch; a halted step is one read of 0xFFFF and the end
of the step. -/
theorem jamHaltsTheProcessor : Obligations.JamHaltsTheProcessor := by
  refine ⟨?_, fun s h => ⟨endStep (rd s 0xFFFF).2, step_of_jammed h, endStep_rd_eq s 0xFFFF,
    (memFrame_rd s 0xFFFF).onCpu _, endStep_rd_nmiPending 0xFFFF⟩⟩
  repeat refine List.forall_mem_cons.2 ⟨runsImplied_of_impliedInstr (fun _ _ _ _ _ _ => rfl) rfl fun _ => rfl, ?_⟩
  exact List.forall_mem_nil _

end Sys2Proof.Machine
end

section
/-! Bus cycles that write at most to the stack, which are those of interrupt service and of the reset sequence: their
memories, the NMI latch, and their blindness to the cells that a boundary and a reset clear. -/

namespace Sys2Proof.Machine

/-! ### Leading reads -/

theorem times_readPc (k : Nat) (s : State) : times readPc k s = afterReads (List.replicate k s.cpu.pc) s := by
  induction k generalizing s with
  | zero => rfl
  | succ k ih =>
    rw [times, ih, readPc_pc, List.replicate_succ, afterReads_cons]
    rfl

/-- A list of reads as bus cycles. -/
theorem afterCycles_map_read (as : List Word) (s : State) : afterCycles (as.map .read) s = afterReads as s :=
  List.foldl_map

theorem afterCycles_append (cs ds : List BusCycle) (s : State) :
    afterCycles (cs ++ ds) s = afterCycles ds (afterCycles cs s) := List.foldl_append

/-- Both values of `INT_CYCLES` leave room for the five cycles after the leading reads (R410, R413). -/
theorem five_le_intCycles_count (n : IntCycles) : 5 ≤ n.count := by cases n <;> decide

/-! ### The cells that a boundary and a reset clear (R40, R404, R651) -/

/-- The processor with another place in its step: the count of cycles since the boundary, the DMA request, the scratch
cells. -/
def restart (k : Nat) (d : Option Byte) (m : Micro) (c : Cpu) : Cpu := { c with tick := k, dmaPage := d, micro := m }

theorem tick_restart (k : Nat) (d : Option Byte) (m : Micro) (s : State) :
    tick (onCpu (restart k d m) s) = onCpu (restart (k + 1) d m) (tick s) := by
  have hunits : unitsCycle (onCpu (restart k d m) s) = _ := unitsCycle_of_cycles_eq (c := restart k d m s.cpu) rfl
  have hcpu := unitsCycle_cpu s
  unfold tick
  rw [hunits]
  generalize unitsCycle s = u at hcpu ⊢
  simp only [onCpu, observeNmi, restart, hcpu]

/-! ### One cycle -/

/-- The cycle is a read, or a write to the stack page (R33). -/
def BusCycle.InStack : BusCycle → Prop
  | .read _ => True
  | .write a _ => ∃ p, a = stackAddr p

theorem BusCycle.InStack.ne_dmaRequest {c : BusCycle} (h : c.InStack) (v : Byte) : .write 0x4014 v ≠ c := by
  rintro rfl
  obtain ⟨p, hp⟩ := h
  exact dmaRegister_ne_stackAddr p hp

theorem BusCycle.InStack.stackOnly {c : BusCycle} (h : c.InStack) (s : State) : StackOnly s (c.after s) := by
  cases c with
  | read a => exact .of_mem (memFrame_rd s a)
  | write a v =>
    obtain ⟨p, rfl⟩ := h
    exact stackOnly_wr s p v

theorem BusCycle.InStack.after_restart {c : BusCycle} (h : c.InStack) (k : Nat) (d : Option Byte) (m : Micro)
    (s : State) : c.after (onCpu (restart k d m) s) = onCpu (restart (k + 1) d m) (c.after s) := by
  cases c with
  | read a => rw [after_read, after_read, rd_snd, rd_snd, busRead_onCpu, tick_restart]
  | write a v =>
    obtain ⟨p, rfl⟩ := h
    have hram := regionOf_stackAddr p
    rw [after_write, after_write, wr, wr, busWrite_of_ram _ v hram, busWrite_of_ram s v hram]
    exact tick_restart k d m { s with openBus := v, ram := Cells.write s.ram (ramIndex (stackAddr p)) v }

/-- With the Picture Unit's enable bit clear the NMI line is low, so no edge arrives (R39, R402). -/
theorem BusCycle.InStack.nmiPending {c : BusCycle} (h : c.InStack) {s : State} (hoff : s.ppu.ctrl.getLsbD 7 = false) :
    (c.after s).cpu.nmiPending = s.cpu.nmiPending := by
  have hline : nmiLine (c.after s).ppu = false := by rw [nmiLine, (h.stackOnly s).ctrl, hoff, Bool.and_false]
  cases c with
  | read a =>
    rw [after_read, rd_snd] at hline ⊢
    rw [tick_nmiPending, hline, busRead_cpu, Bool.false_and, Bool.or_false]
  | write a v =>
    obtain ⟨p, rfl⟩ := h
    rw [after_write, wr] at hline ⊢
    rw [tick_nmiPending, hline, busWrite_of_ram s v (regionOf_stackAddr p), Bool.false_and, Bool.or_false]

/-! ### Lists of such cycles -/

section
variable {cs : List BusCycle} (h : ∀ c ∈ cs, c.InStack)
include h

theorem afterCycles_cpu_of_inStack (s : State) : (afterCycles cs s).cpu = s.cpu.spent cs.length (afterCycles cs s) :=
  afterCycles_cpu (fun v hv => (h _ hv).ne_dmaRequest v rfl) s

theorem stackOnly_afterCycles (s : State) : StackOnly s (afterCycles cs s) := by
  induction cs generalizing s with
  | nil => exact .of_mem (.refl s)
  | cons c cs ih =>
    obtain ⟨hc, hcs⟩ := List.forall_mem_cons.1 h
    exact (hc.stackOnly s).trans (ih hcs _)

theorem afterCycles_restart (k : Nat) (d : Option Byte) (m : Micro) (s : State) :
    afterCycles cs (onCpu (restart k d m) s) = onCpu (restart (k + cs.length) d m) (afterCycles cs s) := by
  induction cs generalizing s k with
  | nil => rfl
  | cons c cs ih =>
    obtain ⟨hc, hcs⟩ := List.forall_mem_cons.1 h
    rw [afterCycles_cons, afterCycles_cons, hc.after_restart, ih hcs, List.length_cons, Nat.add_assoc, Nat.add_comm 1]

theorem afterCycles_nmiPending {s : State} (hoff : s.ppu.ctrl.getLsbD 7 = false) :
    (afterCycles cs s).cpu.nmiPending = s.cpu.nmiPending := by
  induction cs generalizing s with
  | nil => rfl
  | cons c cs ih =>
    obtain ⟨hc, hcs⟩ := List.forall_mem_cons.1 h
    have hctrl : (c.after s).ppu.ctrl = s.ppu.ctrl := (hc.stackOnly s).ctrl
    rw [afterCycles_cons, ih hcs (hctrl ▸ hoff), hc.nmiPending hoff]

end

theorem afterReads_restart (as : List Word) (k : Nat) (d : Option Byte) (m : Micro) (s : State) :
    afterReads as (onCpu (restart k d m) s) = onCpu (restart (k + as.length) d m) (afterReads as s) := by
  have hreads : ∀ c ∈ as.map BusCycle.read, c.InStack := List.forall_mem_map.2 fun _ _ => trivial
  rw [← afterCycles_map_read, afterCycles_restart hreads, afterCycles_map_read, List.length_map]

end Sys2Proof.Machine
end

section
/-! Interrupt service (60_exceptions.md R410, R411): the leading reads and the entry with B = 0, as one list of cycles
between two boundaries. -/

namespace Sys2Proof.Machine

/-- The bus cycles of `Interrupt(vector)`, in order (R410). -/
def serviceCycles (vector : Word) (s : State) : List BusCycle :=
  List.replicate (s.chip.intCycles.count - 5) (.read s.cpu.pc) ++
    [.write (stackAddr s.cpu.s) (hiByte s.cpu.pc), .write (stackAddr (s.cpu.s - 1)) (loByte s.cpu.pc),
      .write (stackAddr (s.cpu.s - 2)) (packP s.cpu false), .read vector, .read (vector + 1)]

/-- What `Interrupt(vector)` makes of the registers, from the state `s` that it begins in (R410). -/
def serviceRegs (vector : Word) (s : State) (c : Cpu) : Cpu :=
  setPc (vectorWord s vector (packP s.cpu false)) (setI true (setS (s.cpu.s - 3) c))

theorem serviceCycles_length (vector : Word) (s : State) :
    (serviceCycles vector s).length = s.chip.intCycles.count := by
  have h := five_le_intCycles_count s.chip.intCycles
  simp only [serviceCycles, List.length_append, List.length_replicate, List.length_cons, List.length_nil]
  omega

theorem serviceCycles_inStack (vector : Word) (s : State) : ∀ c ∈ serviceCycles vector s, c.InStack := by
  refine List.forall_mem_append.2 ⟨fun c hc => ?_, ?_⟩
  · rw [List.eq_of_mem_replicate hc]
    trivial
  · simp only [List.forall_mem_cons, BusCycle.InStack, exists_apply_eq_apply', List.not_mem_nil, false_imp_iff,
      implies_true, and_self]

/-- The leading reads change no register, so the entry stacks what the boundary held. -/
theorem packP_afterReads (as : List Word) (s : State) (b : Bool) : packP (afterReads as s).cpu b = packP s.cpu b := by
  rw [(readOnly_afterReads as s).cpu]
  rfl

theorem interrupt_eq {vector : Word} (h : 0x8000 ≤ vector.toNat) (h' : vector.toNat < 0xFFFF) (s : State) :
    interrupt vector s = onCpu (serviceRegs vector s) (afterCycles (serviceCycles vector s) s) := by
  have hreads := readOnly_afterReads (List.replicate (s.chip.intCycles.count - 5) s.cpu.pc) s
  obtain ⟨-, -, -, hs, hpc⟩ := hreads.reg
  rw [interrupt, times_readPc, enterHandler_eq false _ h h', packP_afterReads, vectorWord_congr (.of_mem hreads.mem),
    hs, hpc, serviceCycles, afterCycles_append, ← List.map_replicate (f := BusCycle.read), afterCycles_map_read]
  rfl

/-- The bytes stacked by `Interrupt(vector)`. -/
theorem stacked_interrupt (vector : Word) {s : State} (hs : Cells.wf s.ram) :
    Stacked s.cpu.pc (some (packP s.cpu false)) s (interrupt vector s) := by
  have hreads := readOnly_afterReads (List.replicate (s.chip.intCycles.count - 5) s.cpu.pc) s
  obtain ⟨-, -, -, hsp, hpc⟩ := hreads.reg
  intro k
  have hstack := stacked_enterHandler vector false (by rwa [hreads.mem.ram]) k
  rwa [packP_afterReads, hsp, hpc, hreads.mem.ram, ← times_readPc] at hstack

/-- `nmi_pending <- 0` (R404). -/
def clearNmi (c : Cpu) : Cpu := { c with nmiPending := false }

/-- The whole step that serves `Interrupt(vector)`: the latch clear, the sequence, the step's end (R404, R411). -/
def served (vector : Word) (s : State) : State := endStep (interrupt vector (onCpu clearNmi (endStep s)))

theorem stacked_served (vector : Word) {s : State} (hs : Cells.wf s.ram) :
    Stacked s.cpu.pc (some (packP s.cpu false)) s (served vector s) := by
  intro k
  have hstack := stacked_interrupt vector (s := onCpu clearNmi (endStep s)) hs k
  rw [served, endStep, onCpu_ram]
  exact hstack

section
variable {vector : Word} (h : 0x8000 ≤ vector.toNat) (h' : vector.toNat < 0xFFFF)
include h h'

/-- The cycles counted from the boundary that the step begins at: what a boundary clears, they do not see (R40). -/
theorem served_eq (s : State) :
    served vector s = endStep (onCpu (serviceRegs vector s)
      (onCpu (restart s.chip.intCycles.count s.cpu.dmaPage .idle)
        (afterCycles (serviceCycles vector s) (onCpu clearNmi s)))) := by
  have hbegin : onCpu clearNmi (endStep s) = onCpu (restart 0 s.cpu.dmaPage .idle) (onCpu clearNmi s) := rfl
  have hpass := afterCycles_restart (serviceCycles_inStack vector s) 0 s.cpu.dmaPage .idle (onCpu clearNmi s)
  rw [Nat.zero_add, serviceCycles_length] at hpass
  rw [served, hbegin, interrupt_eq h h', ← hpass]
  rfl

/-- The same as the state that the cycles leave, with the registers at the boundary (R40). -/
theorem served_eq_ended (s : State) :
    let u := afterCycles (serviceCycles vector s) (onCpu clearNmi s)
    served vector s =
      { u with cpu := (serviceRegs vector s s.cpu).ended s.chip.intCycles.count u (served vector s) } := by
  have hcpu := afterCycles_cpu_of_inStack (serviceCycles_inStack vector s) (onCpu clearNmi s)
  rw [serviceCycles_length] at hcpu
  rw [served_eq h h']
  generalize afterCycles (serviceCycles vector s) (onCpu clearNmi s) = u at hcpu
  simp only [endStep, onCpu, restart, Cpu.ended, hcpu]
  rfl

theorem stackOnly_served (s : State) : StackOnly s (served vector s) := by
  have hbegin : StackOnly s (onCpu clearNmi s) := .of_mem ((MemFrame.refl s).onCpu _)
  rw [served_eq h h']
  exact (((hbegin.trans (stackOnly_afterCycles (serviceCycles_inStack vector s) _)).onCpu _).onCpu _).onCpu _

/-- With the enable bit clear the latch, cleared first, stays clear (R39). -/
theorem served_nmiPending {s : State} (hoff : s.ppu.ctrl.getLsbD 7 = false) :
    (served vector s).cpu.nmiPending = false := by
  have hlatch := afterCycles_nmiPending (serviceCycles_inStack vector s) (s := onCpu clearNmi s) hoff
  rw [served_eq_ended h h']
  exact hlatch

/-- Interrupt service enters the handler (R410). -/
theorem entersHandler_served (s : State) : EntersHandler vector s (served vector s) :=
  ⟨served_eq_ended h h' s, stackOnly_served h h' s, fun hs => stacked_served vector hs.ram.1⟩

end

/-! ### NMI (R404, R405, R411) -/

theorem boundaryChoice_of_nmi {s : State} (hj : s.cpu.jammed = false) (hn : s.cpu.nmiPending = true) :
    boundaryChoice s = .nmi := by
  rw [boundaryChoice, if_neg (ne_true_of_eq_false hj), if_pos hn]

theorem step_of_nmi {s : State} (hj : s.cpu.jammed = false) (hn : s.cpu.nmiPending = true) :
    step s = .next (served vecNmi s) := by
  have hchoice : boundaryChoice (endStep s) = .nmi := boundaryChoice_of_nmi hj hn
  rw [step, stepInstruction, hchoice]
  rfl

/-- Settles O33: at a boundary with the latch set the step is the service of vector 0xFFFA, and that begins with the latch
cleared, so it does not depend on whether `RaiseNmi` set it. -/
theorem nmiEntersTheHandler : Obligations.NmiEntersTheHandler :=
  ⟨fun s hj hn => ⟨served vecNmi s, step_of_nmi hj hn, entersHandler_served (by decide) (by decide) s,
      served_nmiPending (by decide) (by decide)⟩,
    fun s hj => ⟨served vecNmi s, step_of_nmi (s := raiseNmi s) hj rfl,
      entersHandler_served (by decide) (by decide) s⟩⟩

end Sys2Proof.Machine
end

section
/-! Reset (60_exceptions.md R413, 64_system_step_and_host.md R651): reads alone, in order, and one change of registers. -/

namespace Sys2Proof.Machine

/-- The stack reads of the reset sequence, `S` lowered after each (R413). -/
def resetStackReads (s : State) : List Word :=
  let d := s.chip.resetSDelta.perCycle
  [stackAddr s.cpu.s, stackAddr (s.cpu.s - d), stackAddr (s.cpu.s - d - d)]

/-- The audio enables cleared, with no bus cycle (R413). -/
def audioOff (s : State) : State := { s with apu := s.apu.enableWrite 0x00 }

/-- The bus reads of the reset sequence, in order (R413). -/
def resetReads (s : State) : List Word :=
  List.replicate (s.chip.intCycles.count - 5) s.cpu.pc ++ (resetStackReads s ++ [0xFFFC, 0xFFFD])

/-- What the reset sequence makes of the registers before its latches, from the state `s` that it begins in (R413). -/
def resetRegs (s : State) (c : Cpu) : Cpu :=
  let d := s.chip.resetSDelta.perCycle
  let last := Cells.read s.ram (stackCell (s.cpu.s - d - d))
  setPc (vectorWord s 0xFFFC last) (setI false (setS (s.cpu.s - d - d - d) c))

theorem resetReads_length (s : State) : (resetReads s).length = s.chip.intCycles.count := by
  have h := five_le_intCycles_count s.chip.intCycles
  simp only [resetReads, resetStackReads, List.length_append, List.length_replicate, List.length_cons, List.length_nil]
  omega

theorem resetPull_eq (s : State) :
    resetPull s = onCpu (setS (s.cpu.s - s.chip.resetSDelta.perCycle)) (rd s (stackAddr s.cpu.s)).2 := by
  rw [resetPull, readStack_s, readStack_eq]

theorem resetStackCycles_eq (s : State) :
    let d := s.chip.resetSDelta.perCycle
    resetStackCycles s = onCpu (setS (s.cpu.s - d - d - d)) (afterReads (resetStackReads s) s) := by
  simp only [resetStackCycles, times, resetPull_eq, resetStackReads, onCpu_cpu, onCpu_chip, setS_s,
    rd_onCpu (regOnly_setS _), onCpu_onCpu, setS_setS, afterReads_cons, afterReads_nil, rd_chip]

/-- The last byte on the bus after the stack reads (R84). -/
theorem afterReads_resetStackReads_openBus (s : State) :
    let d := s.chip.resetSDelta.perCycle
    (afterReads (resetStackReads s) s).openBus = Cells.read s.ram (stackCell (s.cpu.s - d - d)) := by
  simp only [resetStackReads, afterReads_cons, afterReads_nil, rd_openBus_of_ram _ (regionOf_stackAddr _),
    ramIndex_stackAddr, rd_ram]

/-- The five cycles after the leading reads. -/
theorem loadVector_resetStackCycles (s : State) :
    loadVector vecReset (onCpu (setI false) (resetStackCycles s)) =
      onCpu (resetRegs s) (afterReads (resetStackReads s ++ [0xFFFC, 0xFFFD]) s) := by
  have hmem : StackOnly s (afterReads (resetStackReads s) s) := .of_mem (readOnly_afterReads _ s).mem
  have hvec : vecReset + 1 = 0xFFFD := rfl
  rw [resetStackCycles_eq, loadVector_eq _ (by decide) (by decide), onCpu_openBus, onCpu_openBus,
    afterReads_resetStackReads_openBus, vectorWord_congr ((hmem.onCpu _).onCpu _),
    afterReads_onCpu (regOnly_setI false), afterReads_onCpu (regOnly_setS _), ← afterReads_append, hvec, vecReset]
  generalize afterReads _ s = u
  rfl

/-- The leading reads change nothing that the rest of the sequence depends on. -/
theorem resetRegs_congr {s t : State} {k : Nat} (h : ReadOnly s t k) : resetRegs t = resetRegs s := by
  obtain ⟨-, -, -, hs, -⟩ := h.reg
  funext c
  simp only [resetRegs, h.mem.chip, h.mem.ram, hs, vectorWord_congr (.of_mem h.mem)]

theorem resetStackReads_congr {s t : State} {k : Nat} (h : ReadOnly s t k) : resetStackReads t = resetStackReads s := by
  obtain ⟨-, -, -, hs, -⟩ := h.reg
  simp only [resetStackReads, h.mem.chip, hs]

/-- The reset sequence as its reads, then one change of registers (R413). -/
theorem resetSequence_eq (s : State) :
    resetSequence s = resetLatches (onCpu (resetRegs s) (afterReads (resetReads s) (audioOff s))) := by
  have hlead := readOnly_afterReads (List.replicate (s.chip.intCycles.count - 5) (audioOff s).cpu.pc) (audioOff s)
  have hpc : (audioOff s).cpu.pc = s.cpu.pc := rfl
  have hregs : resetRegs (audioOff s) = resetRegs s := rfl
  have hreads : resetStackReads (audioOff s) = resetStackReads s := rfl
  have hdef : resetSequence s = resetLatches (loadVector vecReset (onCpu (setI false) (resetStackCycles
      (times readPc (s.chip.intCycles.count - 5) (audioOff s))))) := rfl
  rw [hdef, times_readPc, loadVector_resetStackCycles, resetRegs_congr hlead, resetStackReads_congr hlead, hregs,
    hreads, ← afterReads_append, hpc, resetReads]

/-- `Reset()` abandons what runs: its reads do not see the cells it clears, so the state is that which they leave from
`s` itself, with the registers and latches of a reset (R651). -/
theorem hostReset_eq (s : State) :
    let u := afterReads (resetReads s) (audioOff s)
    hostReset s =
      { u with
        cpu := { resetRegs s s.cpu with
          jammed := false, nmiPending := false, nmiPrev := nmiLine u.ppu, cycles := s.cpu.cycles + s.chip.intCycles.count
          tick := 0, dmaPage := none, micro := .idle } } := by
  have hcpu := (readOnly_afterReads (resetReads s) (audioOff s)).cpu
  have hbegin : hostReset s = resetSequence (onCpu (restart 0 none .idle) s) := rfl
  have haudio : audioOff (onCpu (restart 0 none .idle) s) = onCpu (restart 0 none .idle) (audioOff s) := rfl
  have hreads : resetReads (onCpu (restart 0 none .idle) s) = resetReads s := rfl
  have hregs : resetRegs (onCpu (restart 0 none .idle) s) = resetRegs s := rfl
  rw [resetReads_length] at hcpu
  rw [hbegin, resetSequence_eq, haudio, hreads, hregs, afterReads_restart]
  generalize afterReads (resetReads s) (audioOff s) = u at hcpu ⊢
  simp only [resetLatches, onCpu, restart, hcpu]
  rfl

theorem hostReset_ppu (s : State) : (hostReset s).ppu = (afterReads (resetReads s) (audioOff s)).ppu := by
  rw [hostReset_eq]

theorem hostReset_micro (s : State) : (hostReset s).cpu.micro = .idle := by rw [hostReset_eq]

theorem memFrame_hostReset (s : State) : MemFrame (audioOff s) (hostReset s) := by
  rw [hostReset_eq]
  exact (readOnly_afterReads (resetReads s) (audioOff s)).mem.onCpu fun _ => _

/-! ### The two values of `RESET_S_DELTA` -/

theorem resetRegs_of_zero {s : State} (h : s.chip.resetSDelta = .zero) :
    resetRegs s s.cpu =
      { s.cpu with i := false, pc := vectorWord s 0xFFFC (Cells.read s.ram (stackCell s.cpu.s)) } := by
  simp only [resetRegs, h, ResetSDelta.perCycle, BitVec.ofNat_eq_ofNat, BitVec.sub_zero]
  rfl

theorem resetRegs_of_three {s : State} (h : s.chip.resetSDelta = .three) :
    resetRegs s s.cpu =
      { s.cpu with
        i := false, s := s.cpu.s - 3, pc := vectorWord s 0xFFFC (Cells.read s.ram (stackCell (s.cpu.s - 2))) } := by
  simp only [resetRegs, h, ResetSDelta.perCycle, BitVec.sub_sub]
  rfl

theorem resetReads_of_three {s : State} (h : s.chip.resetSDelta = .three) :
    resetReads s = List.replicate (s.chip.intCycles.count - 5) s.cpu.pc ++
      [stackAddr s.cpu.s, stackAddr (s.cpu.s - 1), stackAddr (s.cpu.s - 2), 0xFFFC, 0xFFFD] := by
  simp only [resetReads, resetStackReads, h, ResetSDelta.perCycle, BitVec.sub_sub]
  rfl

/-- Settles O36: the reads of the sequence, then the registers, with `RESET_S_DELTA` at its two values. -/
theorem resetKeepsRegistersAndMemories : Obligations.ResetKeepsRegistersAndMemories := by
  intro s n r c
  have hr : r = _ := hostReset_eq s
  have hc : c = { s.cpu with
      i := false, jammed := false, nmiPending := false, nmiPrev := nmiLine (afterReads (resetReads s) (audioOff s)).ppu
      cycles := s.cpu.cycles + s.chip.intCycles.count, tick := 0, dmaPage := none, micro := .idle } := by
    rw [← hostReset_ppu, ← hostReset_micro s]; rfl
  refine ⟨memFrame_hostReset s, fun hzero => ⟨Cells.read s.ram (stackCell s.cpu.s), ?_⟩, fun hthree => ?_⟩
  · rw [hr, hc, resetRegs_of_zero hzero]
  · dsimp only
    rw [hr, hc, resetRegs_of_three hthree, resetReads_of_three hthree]
    rfl

end Sys2Proof.Machine
end

section
/-! The step is total (60_exceptions.md R400, 64_system_step_and_host.md R641): no arm of `exec` stops, and neither the
attached DMA nor the return to the boundary turns a next state into a stop. -/

namespace Sys2Proof.Machine

/-- No instruction faults or is refused (R400): each of the 256 arms answers a next state, whatever its operand. -/
theorem exec_answers_next (i : Instr) (s : State) : ∃ t, exec i s = .next t := by
  cases i <;> exact ⟨_, rfl⟩

theorem mapNext_answers_next (f : State → State) {o : Host.Outcome State Fault Refusal} (h : ∃ t, o = .next t) :
    ∃ t, mapNext f o = .next t := by
  obtain ⟨t, rfl⟩ := h
  exact ⟨f t, rfl⟩

theorem runInstr_answers_next (s : State) : ∃ t, runInstr s = .next t :=
  mapNext_answers_next attachedDma (exec_answers_next (fetchInstr s).1 (fetchInstr s).2)

/-- Settles O32, by the choice at the boundary: a jammed cycle and the two services are next states, and the instruction
arm is one since every arm of `exec` is. -/
theorem everyStateHasANextState : Obligations.EveryStateHasANextState := by
  intro s
  rw [step, stepInstruction]
  refine mapNext_answers_next endStep ?_
  cases boundaryChoice (endStep s) with
  | jammed => exact ⟨jammedStep (endStep s), rfl⟩
  | nmi => exact ⟨serveNmi (endStep s), rfl⟩
  | irq => exact ⟨serveIrq (endStep s), rfl⟩
  | instruction => exact runInstr_answers_next (endStep s)

end Sys2Proof.Machine
end

section
/-! Decoding and encoding (30_encoding.md R140 to R144): each cell of the opcode map encodes to its own opcode, so the two
are inverse to each other. -/

namespace Sys2Proof

/-! ### Words and their bytes (R8) -/

theorem hiByte_toNat (w : Word) : (hiByte w).toNat = w.toNat / 0x100 := by
  have := w.isLt
  rw [hiByte, BitVec.extractLsb'_toNat, Nat.shiftRight_eq_div_pow]
  omega

theorem loByte_toNat (w : Word) : (loByte w).toNat = w.toNat % 0x100 := by
  rw [loByte, BitVec.extractLsb'_toNat, Nat.shiftRight_zero]

theorem wordOf_hiByte_loByte (w : Word) : wordOf (hiByte w) (loByte w) = w := by
  apply BitVec.eq_of_toNat_eq
  rw [Machine.wordOf_toNat, hiByte_toNat, loByte_toNat]
  exact Nat.div_add_mod w.toNat 0x100

theorem hiByte_wordOf (hi lo : Byte) : hiByte (wordOf hi lo) = hi := BitVec.extractLsb'_append_eq_left

theorem loByte_wordOf (hi lo : Byte) : loByte (wordOf hi lo) = lo := BitVec.extractLsb'_append_eq_right

/-! ### The cells of the opcode map -/

/-- The cell holds an instruction of each format whose first byte is `op`, and whose operand bytes are its operand's
(R140, R142). -/
inductive Shape.Encodes (op : Byte) : Shape → Prop
  | f1 {i : Instr} (h : encode i = [op]) : Encodes op (.f1 i)
  | f2 {c : Byte → Instr} (h : ∀ b, encode (c b) = [op, b]) : Encodes op (.f2 c)
  | f3 {c : Word → Instr} (h : ∀ w, encode (c w) = [op, loByte w, hiByte w]) : Encodes op (.f3 c)

/-- `P` of the opcodes from `n` on and the cells of a list. -/
def RowAll (P : Byte → Shape → Prop) : Nat → List Shape → Prop
  | _, [] => True
  | n, sh :: row => P (BitVec.ofNat 8 n) sh ∧ RowAll P (n + 1) row

theorem RowAll.getD {P : Byte → Shape → Prop} {n : Nat} {row : List Shape} (h : RowAll P n row) {k : Nat}
    (hk : k < row.length) (d : Shape) : P (BitVec.ofNat 8 (n + k)) (row.getD k d) := by
  induction row generalizing n k with
  | nil => exact absurd hk (Nat.not_lt_zero k)
  | cons sh row ih =>
    obtain ⟨hsh, hrow⟩ := h
    cases k with
    | zero => exact hsh
    | succ k =>
      rw [← Nat.add_assoc, Nat.add_right_comm]
      exact ih hrow (Nat.lt_of_succ_lt_succ hk)

theorem rows_length (r : Fin 16) : (OpcodeMap.rows.getD r []).length = 16 := by
  fin_cases r <;> rfl

/-- What holds of the 16 rows of the opcode map holds of every opcode and its cell (R144). -/
theorem shapeOf_of_rows {P : Byte → Shape → Prop} (h : ∀ r : Fin 16, RowAll P (16 * r) (OpcodeMap.rows.getD r []))
    (op : Byte) : P op (shapeOf op) := by
  have hop : op.toNat < 256 := op.isLt
  have hcell := (h ⟨op.toNat / 16, by omega⟩).getD (k := op.toNat % 16) (by rw [rows_length]; omega) (.f1 .nop)
  rwa [Nat.div_add_mod, BitVec.ofNat_toNat, BitVec.setWidth_eq] at hcell

/-- Every opcode byte has a cell, which encodes to it (R141, R144). -/
theorem shapeOf_encodes (op : Byte) : (shapeOf op).Encodes op := by
  refine shapeOf_of_rows (fun r => ?_) op
  fin_cases r
  all_goals
    repeat' constructor
    all_goals intro; rfl

/-! ### Both directions -/

theorem decode_of_f3 {op : Byte} {c : Word → Instr} (h : shapeOf op = .f3 c) (w : Word) (rest : List Byte) :
    decode (op :: loByte w :: hiByte w :: rest) = .ok (c w, rest) := by
  simp only [decode, h, wordOf_hiByte_loByte]

theorem decode_encode (i : Instr) (rest : List Byte) : decode (encode i ++ rest) = .ok (i, rest) := by
  cases i
  any_goals exact rfl
  all_goals exact decode_of_f3 rfl _ rest

theorem encode_append_of_decode {bytes rest : List Byte} {i : Instr} (h : decode bytes = .ok (i, rest)) :
    bytes = encode i ++ rest := by
  unfold decode at h
  split at h
  · cases h
  next op bytes =>
    have hop := shapeOf_encodes op
    split at h
    case h_1 hsh =>
      rw [hsh] at hop
      cases h
      cases hop with
      | f1 he => rw [he]; rfl
    case h_2 hsh =>
      rw [hsh] at hop
      cases h
      cases hop with
      | f2 he => rw [he]; rfl
    case h_4 hsh =>
      rw [hsh] at hop
      cases h
      cases hop with
      | f3 he => rw [he, hiByte_wordOf, loByte_wordOf]; rfl
    all_goals cases h

/-- Three bytes are enough for every opcode (R140, R141). -/
theorem decode_three (op b1 b2 : Byte) :
    decode [op, b1, b2] = .ok (decodeBytes op b1 b2, [op, b1, b2].drop (lengthOf op)) := by
  simp only [decode, decodeBytes, lengthOf]
  cases shapeOf op <;> rfl

/-- Settles O1, by evaluation of the decoder on the written-out words. -/
theorem decodingOfWrittenWords : Obligations.DecodingOfWrittenWords :=
  ⟨rfl, rfl, rfl, rfl, rfl, rfl, rfl, rfl, rfl, rfl, rfl, rfl, rfl, rfl, rfl⟩

/-- Settles O2: `encode` runs through the instructions, `decode` through the cells of the opcode map. -/
theorem decodeEncodeRoundTrip : Obligations.DecodeEncodeRoundTrip :=
  ⟨fun i rest _ => decode_encode i rest, fun _ _ _ h => encode_append_of_decode h,
    fun op b1 b2 => ⟨_, _, decode_three op b1 b2⟩⟩

end Sys2Proof
end

section
/-! The plan of an opcode (Machine/Cycle.lean) as what its instruction does: `exec` of what the opcode decodes to is the
shape that the plan names, at the operand bytes. One lemma over the 256 cells of the opcode map; what holds of every
instruction is then shown by cases on the fifteen plans. -/

namespace Sys2Proof.Machine

/-! ### Changes of registers that no cell of a step in progress enters -/

/-- `f` looks at neither the counters, the NMI latches, the DMA request nor the scratch cells. -/
def RegRead {α : Type} (f : Cpu → α) : Prop :=
  ∀ (c : Cpu) (n t : Nat) (p q : Bool) (d : Option Byte) (m : Micro),
    f { c with cycles := n, tick := t, nmiPrev := p, nmiPending := q, dmaPage := d, micro := m } = f c

/-- `f` neither looks at them nor changes them. -/
def RegChange (f : Cpu → Cpu) : Prop :=
  ∀ (c : Cpu) (n t : Nat) (p q : Bool) (d : Option Byte) (m : Micro),
    f { c with cycles := n, tick := t, nmiPrev := p, nmiPending := q, dmaPage := d, micro := m } =
      { f c with cycles := n, tick := t, nmiPrev := p, nmiPending := q, dmaPage := d, micro := m }

theorem RegChange.micro {f : Cpu → Cpu} (hf : RegChange f) (c : Cpu) : (f c).micro = c.micro := by
  have h := hf c c.cycles c.tick c.nmiPrev c.nmiPending c.dmaPage c.micro
  exact (congrArg Cpu.micro h :)

theorem RegChange.regOnly {f : Cpu → Cpu} (hf : RegChange f) : RegOnly f := by
  intro c n t p q d
  have h := hf c n t p q d c.micro
  exact h.trans (by simp only [hf.micro c])

theorem RegChange.onMicro {f : Cpu → Cpu} (hf : RegChange f) (g : Micro → Micro) (s : State) :
    onCpu f (onMicro g s) = onMicro g (onCpu f s) := by
  have h := hf s.cpu s.cpu.cycles s.cpu.tick s.cpu.nmiPrev s.cpu.nmiPending s.cpu.dmaPage (g s.cpu.micro)
  have e := hf s.cpu s.cpu.cycles s.cpu.tick s.cpu.nmiPrev s.cpu.nmiPending s.cpu.dmaPage s.cpu.micro
  simp only [onCpu, Machine.onMicro, h, hf.micro]
  rw [e]

theorem RegRead.spent {α : Type} {f : Cpu → α} (hf : RegRead f) (c : Cpu) (k : Nat) (t : State) :
    f (c.spent k t) = f c :=
  hf c (c.cycles + k) (c.tick + k) t.cpu.nmiPrev t.cpu.nmiPending c.dmaPage c.micro

/-! ### Plans -/

/-- The operand place of a mode, from the two bytes after the opcode (R172 to R181). -/
def Mode.place (m : Mode) (lo hi : Byte) : Place :=
  match m with
  | .zp => .zp lo
  | .zpx => .zpx lo
  | .zpy => .zpy lo
  | .abs => .abs (wordOf hi lo)
  | .abx => .abx (wordOf hi lo)
  | .aby => .aby (wordOf hi lo)
  | .izx => .izx lo
  | .izy => .izy lo

/-- What a plan does after its instruction's bytes `lo` and `hi` have been fetched. -/
def Plan.run (p : Plan) (lo hi : Byte) (s : State) : State :=
  match p with
  | .implied f => impliedInstr f s
  | .immediate f => readInstr f (.imm lo) s
  | .read m f => readInstr f (.mem (m.place lo hi)) s
  | .store m f => storeInstr f (m.place lo hi) s
  | .modify m f => modifyInstr f (m.place lo hi) s
  | .storeHigh m r g => onCpu g (Machine.storeHigh (m.place lo hi) (r s.cpu) s)
  | .branch cond => branchOn (cond s.cpu) lo s
  | .jmpAbs => onCpu (setPc (wordOf hi lo)) s
  | .jmpInd =>
    let l := rd s (wordOf hi lo)
    let h := rd l.2 (wordOf (hiByte (wordOf hi lo)) (loByte (wordOf hi lo) + 1))
    onCpu (setPc (wordOf h.1 l.1)) h.2
  | .jsr => onCpu (setPc (wordOf hi lo)) (readPc (pushWord s.cpu.pc (readStack s)))
  | .rts =>
    let r := pullWord (readStack (readPc s))
    let t := readPc (onCpu (setPc r.1) r.2)
    onCpu (setPc (t.cpu.pc + 1)) t
  | .brk => enterHandler vecIrq true (fetch s).2
  | .rti => returnFromHandler (readStack (readPc s))
  | .push f => Machine.push (f s.cpu) (readPc s)
  | .pull f =>
    let r := Machine.pull (readStack (readPc s))
    onCpu (f r.1) r.2

/-- The bytes of a mode's operand. -/
def Mode.operandBytes : Mode → Nat
  | .abs => 2
  | .abx => 2
  | .aby => 2
  | _ => 1

/-- The bytes of an instruction, by its plan (R140). -/
def Plan.length : Plan → Nat
  | .implied _ => 1
  | .immediate _ => 2
  | .read m _ => 1 + m.operandBytes
  | .store m _ => 1 + m.operandBytes
  | .modify m _ => 1 + m.operandBytes
  | .storeHigh m _ _ => 1 + m.operandBytes
  | .branch _ => 2
  | .jmpAbs => 3
  | .jmpInd => 3
  | .jsr => 3
  | .rts => 1
  | .brk => 1
  | .rti => 1
  | .push _ => 1
  | .pull _ => 1

/-- The plan is that of JSR, whose third byte its last cycle reads (R235). -/
def Plan.isJsr : Plan → Bool
  | .jsr => true
  | _ => false

/-- The register functions of a plan are functions of the registers alone. -/
def Plan.Regular : Plan → Prop
  | .implied f => RegChange f
  | .immediate f => ∀ b, RegChange (f b)
  | .read _ f => ∀ b, RegChange (f b)
  | .store _ f => RegRead f
  | .modify _ f => ∀ b, RegRead (fun c => (f b c).1) ∧ RegChange (fun c => (f b c).2)
  | .storeHigh m r g => (m = .abx ∨ m = .aby ∨ m = .izy) ∧ RegRead r ∧ RegChange g
  | .branch cond => RegRead cond
  | .push f => RegRead f
  | .pull f => ∀ b, RegChange (f b)
  | _ => True

/-- The cycles of a memory access of one kind in one mode after the instruction's bytes, where no page is crossed by a
read, and where one is (R187). -/
def Mode.cycles (k : Kind) (m : Mode) (crossed : Bool) : Nat :=
  totalCycles k (m.place 0x00 0x00) crossed - (m.place 0x00 0x00).length

/-- The fewest cycles of a plan after its bytes are fetched (R150). -/
def Plan.least : Plan → Nat
  | .implied _ => 1
  | .immediate _ => 0
  | .read m _ => m.cycles .read false
  | .store m _ => m.cycles .write false
  | .modify m _ => m.cycles .modify false
  | .storeHigh m _ _ => m.cycles .write false
  | .branch _ => 0
  | .jmpAbs => 0
  | .jmpInd => 2
  | .jsr => 4
  | .rts => 5
  | .brk => 6
  | .rti => 5
  | .push _ => 2
  | .pull _ => 3

/-- The cycles that a crossed page or a taken branch may add (R150). -/
def Plan.penalty : Plan → Nat
  | .read m _ => m.cycles .read true - m.cycles .read false
  | .branch _ => 2
  | _ => 0

/-! ### The plan of every opcode -/

/-- The instruction of a cell at two operand bytes (R140). -/
def cellInstr (sh : Shape) (lo hi : Byte) : Instr :=
  match sh with
  | .f1 i => i
  | .f2 c => c lo
  | .f3 c => c (wordOf hi lo)

/-- The bytes of a cell's instruction (R140). -/
def cellLength (sh : Shape) : Nat :=
  match sh with
  | .f1 _ => 1
  | .f2 _ => 2
  | .f3 _ => 3

/-- The opcodes whose register change is none, or, for TAS (0x9B), comes before the cycles: NOP, SHA, SHX, SHY, TAS. -/
def plainOpcodes : List Byte :=
  [0xEA, 0x1A, 0x3A, 0x5A, 0x7A, 0xDA, 0xFA, 0x9F, 0x93, 0x9E, 0x9C, 0x9B]

/-- `exec` of an opcode's instruction is what its plan does, whatever the operand. -/
def PlanRuns (op : Byte) (sh : Shape) : Prop :=
  op ∉ plainOpcodes →
    ∀ lo hi s, exec (cellInstr sh lo hi) s = .next ((planOf s.chip (cellInstr sh 0x00 0x00)).run lo hi s)

theorem rows_planRuns (r : Fin 16) : RowAll PlanRuns (16 * r) (OpcodeMap.rows.getD r []) := by
  fin_cases r
  all_goals refine ⟨?_, ?_, ?_, ?_, ?_, ?_, ?_, ?_, ?_, ?_, ?_, ?_, ?_, ?_, ?_, ?_, trivial⟩
  any_goals (refine fun h => absurd ?_ h; decide)
  all_goals exact fun _ _ _ _ => rfl

theorem planRuns_of_plain {op : Byte} (h : op ∈ plainOpcodes) (lo hi : Byte) (s : State) :
    exec (decodeBytes op lo hi) s = .next ((planOfOpcode s.chip op).run lo hi s) := by
  simp only [plainOpcodes, List.mem_cons, List.not_mem_nil, or_false] at h
  rcases h with rfl | rfl | rfl | rfl | rfl | rfl | rfl | rfl | rfl | rfl | rfl | rfl
  case inr.inr.inr.inr.inr.inr.inr.inr.inr.inr.inr => exact congrArg Host.Outcome.next (tas_aby_eq (wordOf hi lo) s)
  all_goals exact congrArg Host.Outcome.next (onCpu_id _).symm

/-- `exec` of what an opcode byte decodes to is what its plan does (R144, R621). -/
theorem exec_decodeBytes (op lo hi : Byte) (s : State) :
    exec (decodeBytes op lo hi) s = .next ((planOfOpcode s.chip op).run lo hi s) := by
  by_cases h : op ∈ plainOpcodes
  · exact planRuns_of_plain h lo hi s
  · exact shapeOf_of_rows rows_planRuns op h lo hi s

/-- The other facts of an opcode's plan: its functions, its length, whether it is JSR, its entry of R150's table. -/
structure PlanFits (op : Byte) (sh : Shape) : Prop where
  regular : ∀ chip, (planOf chip (cellInstr sh 0x00 0x00)).Regular
  length  : ∀ chip, cellLength sh = (planOf chip (cellInstr sh 0x00 0x00)).length
  isJsr   : ∀ chip, (planOf chip (cellInstr sh 0x00 0x00)).isJsr = decide (op = opJsr)
  cycles  : ∀ chip, cycleEntry op =
    ((if op = opJsr then 2 else cellLength sh) + (planOf chip (cellInstr sh 0x00 0x00)).least,
      (planOf chip (cellInstr sh 0x00 0x00)).penalty)

theorem rows_planFits (r : Fin 16) : RowAll PlanFits (16 * r) (OpcodeMap.rows.getD r []) := by
  fin_cases r
  all_goals refine ⟨?_, ?_, ?_, ?_, ?_, ?_, ?_, ?_, ?_, ?_, ?_, ?_, ?_, ?_, ?_, ?_, trivial⟩
  all_goals refine ⟨?_, fun _ => rfl, fun _ => rfl, fun _ => rfl⟩
  -- The kinds of plan: one function of the registers, one of a byte and the registers, a pair, none, a StoreHigh.
  all_goals first
    | exact fun _ _ _ _ _ _ _ _ => rfl
    | exact fun _ _ _ _ _ _ _ _ _ => rfl
    | exact fun _ _ => ⟨fun _ _ _ _ _ _ _ => rfl, fun _ _ _ _ _ _ _ => rfl⟩
    | exact fun _ => True.intro
    | refine fun _ => ⟨?_, fun _ _ _ _ _ _ _ => rfl, fun _ _ _ _ _ _ _ => rfl⟩
  all_goals decide

theorem planFits (op : Byte) : PlanFits op (shapeOf op) := shapeOf_of_rows rows_planFits op

theorem planOfOpcode_regular (chip : ChipParams) (op : Byte) : (planOfOpcode chip op).Regular := (planFits op).regular chip

theorem lengthOf_eq (chip : ChipParams) (op : Byte) : lengthOf op = (planOfOpcode chip op).length := (planFits op).length chip

theorem isJsr_planOfOpcode (chip : ChipParams) (op : Byte) : (planOfOpcode chip op).isJsr = decide (op = opJsr) :=
  (planFits op).isJsr chip

/-- The table of R150 by plan: the bytes fetched, JSR's third excepted, and the cycles of the plan. -/
theorem cycleEntry_eq (chip : ChipParams) (op : Byte) :
    cycleEntry op = ((if op = opJsr then 2 else lengthOf op) + (planOfOpcode chip op).least,
      (planOfOpcode chip op).penalty) := (planFits op).cycles chip

end Sys2Proof.Machine
end

section
/-! Every step as bus cycles and changes of registers: `Cycled` counts the cycles, each operation over the bus adds its
own, and a plan's cycles lie in the bounds of R150. What a bus cycle and a register change keep, a step keeps. -/

namespace Sys2Proof.Machine

/-- `t` is reached from `s` by `n` bus cycles, and changes of the processor that leave its cycle count alone (R41). -/
inductive Cycled (s : State) : Nat → State → Prop
  | refl : Cycled s 0 s
  | read {n : Nat} {t : State} (h : Cycled s n t) (a : Word) : Cycled s (n + 1) (rd t a).2
  | write {n : Nat} {t : State} (h : Cycled s n t) (a : Word) (v : Byte) : Cycled s (n + 1) (wr t a v)
  | regs {n : Nat} {t : State} (h : Cycled s n t) {f : Cpu → Cpu} (hf : ∀ c, (f c).cycles = c.cycles) :
    Cycled s n (onCpu f t)

namespace Cycled

variable {s t u : State} {m n : Nat}

theorem trans (h : Cycled s m t) (h' : Cycled t n u) : Cycled s (m + n) u := by
  induction h' with
  | refl => exact h
  | read _ a ih => exact ih.read a
  | write _ a v ih => exact ih.write a v
  | regs _ hf ih => exact ih.regs hf

theorem cast (h : Cycled s m t) (e : m = n) : Cycled s n t := e ▸ h

/-- The count is that of the processor (R41, R622). -/
theorem cycles (h : Cycled s n t) : t.cpu.cycles = s.cpu.cycles + n := by
  induction h with
  | refl => rfl
  | read _ a ih => rw [rd_cycles, ih, Nat.add_assoc]
  | write _ a v ih => rw [wr_cycles, ih, Nat.add_assoc]
  | regs _ hf ih => rw [onCpu_cpu, hf, ih]

/-- A property that every bus cycle and every change of registers keeps. -/
theorem keeps (h : Cycled s n t) {P : State → Prop} (hread : ∀ u a, P u → P (rd u a).2)
    (hwrite : ∀ u a v, P u → P (wr u a v)) (hregs : ∀ u f, P u → P (onCpu f u)) (hs : P s) : P t := by
  induction h with
  | refl => exact hs
  | read _ a ih => exact hread _ a ih
  | write _ a v ih => exact hwrite _ a v ih
  | regs _ _ ih => exact hregs _ _ ih

/-! ### The operations over the bus (R10) -/

theorem readPc (h : Cycled s n t) : Cycled s (n + 1) (readPc t) := h.read _

theorem readStack (h : Cycled s n t) : Cycled s (n + 1) (readStack t) := h.read _

theorem setPc (h : Cycled s n t) (w : Word) : Cycled s n (onCpu (setPc w) t) :=
  h.regs (f := Machine.setPc w) fun _ => rfl

theorem setS (h : Cycled s n t) (v : Byte) : Cycled s n (onCpu (setS v) t) := h.regs (f := Machine.setS v) fun _ => rfl

theorem fetch (h : Cycled s n t) : Cycled s (n + 1) (fetch t).2 := by
  rw [fetch_snd]
  exact (h.read _).setPc _

theorem push (h : Cycled s n t) (v : Byte) : Cycled s (n + 1) (push v t) := by
  rw [push_eq]
  exact (h.write _ v).setS _

theorem pull (h : Cycled s n t) : Cycled s (n + 1) (pull t).2 := by
  rw [pull_snd]
  exact (h.read _).setS _

theorem pushWord (h : Cycled s n t) (w : Word) : Cycled s (n + 2) (pushWord w t) := (h.push _).push _

theorem pullWord (h : Cycled s n t) : Cycled s (n + 2) (pullWord t).2 := h.pull.pull

theorem loadVector (h : Cycled s n t) (vector : Word) : Cycled s (n + 2) (loadVector vector t) :=
  ((h.read _).read _).setPc _

theorem enterHandler (h : Cycled s n t) (vector : Word) (b : Bool) : Cycled s (n + 5) (enterHandler vector b t) := by
  rw [enterHandler_eq_loadVector]
  exact (((h.pushWord _).push _).regs (f := setI true) fun _ => rfl).loadVector vector

theorem returnFromHandler (h : Cycled s n t) : Cycled s (n + 3) (returnFromHandler t) :=
  (h.pull.regs (f := unpackP (Machine.pull t).1) fun _ => rfl).pullWord.setPc _

theorem reads (h : Cycled s n t) (as : List Word) : Cycled s (n + as.length) (afterReads as t) := by
  induction as generalizing n t with
  | nil => exact h
  | cons a as ih =>
    rw [afterReads_cons, List.length_cons, Nat.add_comm as.length, ← Nat.add_assoc]
    exact ih (h.read a)

theorem times (h : Cycled s n t) (k : Nat) : Cycled s (n + k) (times Machine.readPc k t) := by
  rw [times_readPc]
  simpa using h.reads (List.replicate k t.cpu.pc)

theorem interrupt (h : Cycled s n t) (vector : Word) :
    Cycled s (n + t.chip.intCycles.count) (interrupt vector t) := by
  have hcount := five_le_intCycles_count t.chip.intCycles
  have hi := (h.times (t.chip.intCycles.count - 5)).enterHandler vector false
  rwa [Nat.add_assoc, Nat.sub_add_cancel hcount] at hi

end Cycled

/-! ### Memory operands -/

theorem addressReads_length (k : Kind) (p : Place) (s : State) :
    (addressReads k p s).length + k.accessCycles = remainingCycles k p s := by
  have hreads := congrArg Cpu.cycles (readOnly_afterReads (addressReads k p s) s).cpu
  have htable := congrArg Cpu.cycles (readOnly_addressCycles k p s).cpu
  have haccess := accessCycles_le_remainingCycles k p s
  rw [addressCycles_snd, hreads] at htable
  simp only [Cpu.spent] at htable
  omega

theorem remainingCycles_place (k : Kind) (m : Mode) (lo hi : Byte) (s : State) :
    remainingCycles k (m.place lo hi) s = m.cycles k (crossed (m.place lo hi) s) := by
  unfold remainingCycles Mode.cycles
  cases m <;> cases k <;> rfl

/-- Only a read may take the cycle more (R187). -/
theorem Mode.cycles_of_ne_read {k : Kind} (hk : k ≠ .read) (m : Mode) (b : Bool) : m.cycles k b = m.cycles k false := by
  cases k with
  | read => exact absurd rfl hk
  | _ => cases m <;> rfl

theorem Mode.cycles_read_bounds (m : Mode) (b : Bool) :
    m.cycles .read false ≤ m.cycles .read b ∧
      m.cycles .read b ≤ m.cycles .read false + (m.cycles .read true - m.cycles .read false) := by
  cases m <;> cases b <;> decide

theorem cycled_addressCycles (k : Kind) (p : Place) (s : State) :
    Cycled s (addressReads k p s).length (addressCycles k p s).2 := by
  rw [addressCycles_snd]
  simpa using (Cycled.refl (s := s)).reads (addressReads k p s)

/-- The address cycles of a write and one write, at any address (R185, R259). -/
theorem cycled_wr_addressCycles (m : Mode) (lo hi : Byte) (a : Word) (v : Byte) (s : State) :
    Cycled s (m.cycles .write false) (wr (addressCycles .write (m.place lo hi) s).2 a v) := by
  have hlength := addressReads_length .write (m.place lo hi) s
  rw [remainingCycles_place, Mode.cycles_of_ne_read (by decide)] at hlength
  rw [← hlength]
  exact (cycled_addressCycles .write (m.place lo hi) s).write a v

theorem cycled_readOperand (m : Mode) (lo hi : Byte) (s : State) :
    Cycled s (m.cycles .read (crossed (m.place lo hi) s)) (readOperand (.mem (m.place lo hi)) s).2 := by
  rw [← remainingCycles_place, ← addressReads_length]
  exact (cycled_addressCycles .read (m.place lo hi) s).read _

theorem cycled_modifyOperand (m : Mode) (lo hi : Byte) (f : Byte → Byte) (s : State) :
    Cycled s (m.cycles .modify false) (modifyOperand (m.place lo hi) f s).2 := by
  have hlength := addressReads_length .modify (m.place lo hi) s
  rw [remainingCycles_place, Mode.cycles_of_ne_read (by decide)] at hlength
  rw [← hlength]
  exact (((cycled_addressCycles .modify (m.place lo hi) s).read _).write _ _).write _ _

theorem indexOf_place {m : Mode} (hm : m = .abx ∨ m = .aby ∨ m = .izy) (lo hi : Byte) (c : Cpu) :
    ∃ index, indexOf (m.place lo hi) c = some index := by
  rcases hm with rfl | rfl | rfl <;> exact ⟨_, rfl⟩

/-! ### Plans -/

theorem RegChange.cycles {f : Cpu → Cpu} (hf : RegChange f) (c : Cpu) : (f c).cycles = c.cycles := hf.regOnly.cycles c

theorem cycled_branchOn (cond : Bool) (off : Byte) (s : State) : ∃ n ≤ 2, Cycled s n (branchOn cond off s) := by
  cases cond with
  | false => exact ⟨0, by decide, .refl⟩
  | true =>
    rw [branchOn_true off s rfl]
    refine ⟨_, ?_, ((Cycled.refl (s := s)).reads _).setPc _⟩
    split <;> simp

/-- The cycles of a plan lie between its fewest and those with its penalty (R150). -/
theorem cycled_run {p : Plan} (hp : p.Regular) (lo hi : Byte) (s : State) :
    ∃ n, Cycled s n (p.run lo hi s) ∧ p.least ≤ n ∧ n ≤ p.least + p.penalty := by
  have exact' {n : Nat} {t : State} (h : Cycled s n t) : ∃ k, Cycled s k t ∧ n ≤ k ∧ k ≤ n + 0 :=
    ⟨n, h, Nat.le_refl n, Nat.le_refl n⟩
  cases p with
  | implied f => exact exact' (Cycled.refl.readPc.regs hp.cycles)
  | immediate f => exact exact' (Cycled.refl.regs (hp lo).cycles)
  | read m f =>
    obtain ⟨hleast, hmost⟩ := m.cycles_read_bounds (crossed (m.place lo hi) s)
    exact ⟨_, (cycled_readOperand m lo hi s).regs (hp _).cycles, hleast, hmost⟩
  | store m f => exact exact' (cycled_wr_addressCycles m lo hi _ _ s)
  | modify m f => exact exact' ((cycled_modifyOperand m lo hi _ s).regs (hp _).2.cycles)
  | storeHigh m r g =>
    obtain ⟨hm, -, hg⟩ := hp
    obtain ⟨index, hindex⟩ := indexOf_place hm lo hi s.cpu
    change ∃ n, Cycled s n (onCpu g (storeHigh (m.place lo hi) (r s.cpu) s)) ∧ _
    rw [storeHigh_eq hindex]
    exact exact' ((cycled_wr_addressCycles m lo hi _ _ s).regs hg.cycles)
  | branch cond =>
    obtain ⟨n, hn, h⟩ := cycled_branchOn (cond s.cpu) lo s
    exact ⟨n, h, Nat.zero_le n, hn⟩
  | jmpAbs => exact exact' (Cycled.refl.setPc _)
  | jmpInd => exact exact' (((Cycled.refl.read _).read _).setPc _)
  | jsr => exact exact' ((Cycled.refl.readStack.pushWord _).readPc.setPc _)
  | rts => exact exact' ((Cycled.refl.readPc.readStack.pullWord.setPc _).readPc.setPc _)
  | brk => exact exact' (Cycled.refl.fetch.enterHandler vecIrq true)
  | rti => exact exact' Cycled.refl.readPc.readStack.returnFromHandler
  | push f => exact exact' (Cycled.refl.readPc.push _)
  | pull f => exact exact' (Cycled.refl.readPc.readStack.pull.regs (hp _).cycles)

/-! ### The instruction at PC -/

theorem fetch_fst (s : State) : (fetch s).1 = peek s s.cpu.pc := by
  unfold fetch
  dsimp only
  rw [rd_fst]

/-- The state after `n` fetches (R10). -/
def fetches (n : Nat) (s : State) : State := (fun u => (fetch u).2)^[n] s

theorem fetches_succ (n : Nat) (s : State) : fetches (n + 1) s = (fetch (fetches n s)).2 :=
  Function.iterate_succ_apply' (fun u => (fetch u).2) n s

theorem cycled_fetches (n : Nat) (s : State) : Cycled s n (fetches n s) := by
  induction n with
  | zero => exact .refl
  | succ n ih =>
    rw [fetches_succ]
    exact ih.fetch

/-- The byte at PC (R140). -/
def atPc (s : State) : Byte := peek s s.cpu.pc

/-- The third byte of the instruction at PC: for JSR the one that its last cycle reads (R235). -/
def thirdByte (s : State) : Byte := if atPc s = opJsr then jsrHighByte (fetches 2 s) else atPc (fetches 2 s)

/-- The bytes fetched before `exec` runs: those of the instruction, JSR's third excepted (R140, log 6). -/
def fetchedBytes (op : Byte) : Nat := if op = opJsr then 2 else lengthOf op

theorem lengthOf_cases (op : Byte) :
    (lengthOf op = 1 ∧ ∀ lo hi, decodeBytes op lo hi = decodeBytes op 0x00 0x00) ∨
    (lengthOf op = 2 ∧ ∀ lo hi, decodeBytes op lo hi = decodeBytes op lo 0x00) ∨ lengthOf op = 3 := by
  unfold lengthOf decodeBytes
  cases shapeOf op with
  | f1 i => exact .inl ⟨rfl, fun _ _ => rfl⟩
  | f2 c => exact .inr (.inl ⟨rfl, fun _ _ => rfl⟩)
  | f3 c => exact .inr (.inr rfl)

/-- The instruction fetched is that of the three bytes from PC on, and its bytes are fetched (R140, R142). -/
theorem fetchInstr_eq (s : State) :
    fetchInstr s = (decodeBytes (atPc s) (atPc (fetches 1 s)) (thirdByte s), fetches (fetchedBytes (atPc s)) s) := by
  have hjsr : lengthOf opJsr = 3 := rfl
  have h1 : (fetch s).2 = fetches 1 s := rfl
  have h2 : (fetch (fetches 1 s)).2 = fetches 2 s := (fetches_succ 1 s).symm
  have h3 : (fetch (fetches 2 s)).2 = fetches 3 s := (fetches_succ 2 s).symm
  have hone (h : lengthOf (atPc s) ≠ 3) : fetchedBytes (atPc s) = lengthOf (atPc s) :=
    if_neg fun he => h ((congrArg lengthOf he).trans hjsr)
  unfold fetchInstr
  simp only [fetch_fst, h1, h2, h3, ← atPc.eq_1]
  rcases lengthOf_cases (atPc s) with ⟨hlen, hbytes⟩ | ⟨hlen, hbytes⟩ | hlen
  · rw [hone (by omega), hlen, hbytes _ (thirdByte s)]
    simp only
  · rw [hone (by omega), hlen, hbytes _ (thirdByte s)]
    simp only
  · rw [hlen, fetchedBytes, thirdByte, hlen]
    by_cases he : atPc s = opJsr
    · simp only [if_pos he]
    · simp only [if_neg he]

/-- The instruction at PC, fetched and run: its bus cycles lie in the bounds of the table (R150). -/
theorem cycled_exec_fetchInstr (s : State) : ∃ n u, exec (fetchInstr s).1 (fetchInstr s).2 = .next u ∧ Cycled s n u ∧
    (cycleEntry (peek s s.cpu.pc)).1 ≤ n ∧
      n ≤ (cycleEntry (peek s s.cpu.pc)).1 + (cycleEntry (peek s s.cpu.pc)).2 := by
  have hfetch := cycled_fetches (fetchedBytes (atPc s)) s
  rw [fetchInstr_eq, exec_decodeBytes, ← atPc.eq_1]
  generalize fetches (fetchedBytes (atPc s)) s = f at hfetch
  have hregular := planOfOpcode_regular f.chip (atPc s)
  obtain ⟨n, hrun, hleast, hmost⟩ := cycled_run hregular (atPc (fetches 1 s)) (thirdByte s) f
  refine ⟨_, _, rfl, hfetch.trans hrun, ?_, ?_⟩
  all_goals
    rw [cycleEntry_eq f.chip, fetchedBytes]
    dsimp only
    omega

/-- Settles O5: the bytes fetched, then the plan, whose bounds are the table's. -/
theorem cyclesOfEveryOpcode : Obligations.CyclesOfEveryOpcode := by
  intro s
  obtain ⟨n, u, hexec, hcycled, hleast, hmost⟩ := cycled_exec_fetchInstr s
  refine ⟨u, hexec, ?_, ?_⟩
  all_goals
    rw [hcycled.cycles]
    omega

end Sys2Proof.Machine
end

section
/-! The step by its choice at the boundary (60_exceptions.md R404): the four arms as equations, each as bus cycles, and
what therefore holds after every step: the invariant, the read-only storage and the inputs, the boundary, the cycles. -/

namespace Sys2Proof.Machine

/-! ### The arms -/

theorem endStep_eq_begun : endStep = State.begun := rfl

theorem onCpu_clearNmi_of_clear {s : State} (h : s.cpu.nmiPending = false) : onCpu clearNmi s = s := by
  rw [onCpu, clearNmi, ← h]

theorem next_inj {s t : State} (h : (.next s : Host.Outcome State Fault Refusal) = .next t) : s = t := by
  injection h

theorem boundaryChoice_of_irq {s : State} (hj : s.cpu.jammed = false) (hn : s.cpu.nmiPending = false)
    (hirq : irqLine s = true) (hi : s.cpu.i = false) : boundaryChoice s = .irq := by
  rw [boundaryChoice, if_neg (ne_true_of_eq_false hj), if_neg (ne_true_of_eq_false hn), if_pos]
  rw [hirq, hi]
  rfl

theorem boundaryChoice_of_fetching {s : State} (h : Fetching s) : boundaryChoice s = .instruction := by
  obtain ⟨hj, hn, hirq⟩ := h
  rw [boundaryChoice, if_neg (ne_true_of_eq_false hj), if_neg (ne_true_of_eq_false hn), if_neg]
  intro hline
  obtain ⟨hline, hi⟩ := Bool.and_eq_true_iff.1 hline
  rcases hirq with h0 | h1
  · exact absurd (hline.symm.trans h0) (by decide)
  · rw [h1] at hi
    exact absurd hi (by decide)

/-- An unmasked request with no NMI waiting is served (R404, R405). -/
theorem step_of_irq {s : State} (hj : s.cpu.jammed = false) (hn : s.cpu.nmiPending = false)
    (hirq : irqLine s = true) (hi : s.cpu.i = false) : step s = .next (served vecIrq s) := by
  have hchoice : boundaryChoice (endStep s) = .irq := boundaryChoice_of_irq hj hn hirq hi
  have hclear : onCpu clearNmi (endStep s) = endStep s := onCpu_clearNmi_of_clear hn
  rw [step, stepInstruction, hchoice, served, hclear]
  rfl

/-- Otherwise the instruction at PC runs, then the DMA it asked for (R404, R108). -/
theorem step_of_fetching {s : State} (h : Fetching s) :
    step s = mapNext (fun t => (attachedDma t).begun) (exec (fetchInstr s.begun).1 (fetchInstr s.begun).2) := by
  obtain ⟨t, ht⟩ := exec_answers_next (fetchInstr s.begun).1 (fetchInstr s.begun).2
  have hchoice : boundaryChoice (endStep s) = .instruction := boundaryChoice_of_fetching h
  rw [step, stepInstruction, hchoice]
  dsimp only [runInstr]
  rw [endStep_eq_begun, ht]
  rfl

/-- The four arms of R404, each with the next state. -/
theorem step_cases (s : State) :
    (s.cpu.jammed = true ∧ step s = .next (endStep (rd s 0xFFFF).2)) ∨
    (s.cpu.jammed = false ∧ s.cpu.nmiPending = true ∧ step s = .next (served vecNmi s)) ∨
    (s.cpu.jammed = false ∧ s.cpu.nmiPending = false ∧ irqLine s = true ∧ s.cpu.i = false ∧
      step s = .next (served vecIrq s)) ∨
    (Fetching s ∧ ∃ u, exec (fetchInstr s.begun).1 (fetchInstr s.begun).2 = .next u ∧
      step s = .next (attachedDma u).begun) := by
  cases hj : s.cpu.jammed with
  | true => exact .inl ⟨rfl, step_of_jammed hj⟩
  | false =>
    cases hn : s.cpu.nmiPending with
    | true => exact .inr (.inl ⟨rfl, rfl, step_of_nmi hj hn⟩)
    | false =>
      by_cases hirq : irqLine s = true ∧ s.cpu.i = false
      · exact .inr (.inr (.inl ⟨rfl, rfl, hirq.1, hirq.2, step_of_irq hj hn hirq.1 hirq.2⟩))
      · have hf : Fetching s := by
          refine ⟨hj, hn, ?_⟩
          cases hline : irqLine s with
          | false => exact .inl rfl
          | true => exact .inr (Bool.of_not_eq_false fun hi => hirq ⟨hline, hi⟩)
        obtain ⟨u, hu⟩ := exec_answers_next (fetchInstr s.begun).1 (fetchInstr s.begun).2
        exact .inr (.inr (.inr ⟨hf, u, hu, by rw [step_of_fetching hf, hu]; rfl⟩))

/-- Settles O34: the interrupt arm enters the handler of vector 0xFFFE, since the latch is clear already; with the line low
or masked the boundary fetches. -/
theorem irqEntersTheHandler : Obligations.IrqEntersTheHandler := by
  refine ⟨fun s hj hn hi hsource => ?_, fun s hj hn hmask => step_of_fetching ⟨hj, hn, ?_⟩⟩
  · have hline : irqLine s = true := by
      simp only [irqLine, Bool.or_eq_true, or_assoc]
      exact hsource
    exact ⟨served vecIrq s, step_of_irq hj hn hline hi, entersHandler_served (by decide) (by decide) s⟩
  · rcases hmask with hi | ⟨hframe, hdmc, hmapper⟩
    · exact .inr hi
    · exact .inl (by rw [irqLine, hframe, hdmc, hmapper]; rfl)

/-! ### The attached DMA (R108) -/

/-- One byte of the transfer, as in R108. -/
theorem dmaBytes_eq_foldl (page : Byte) (n i : Nat) (s : State) :
    dmaBytes page n i s = (List.range' i n).foldl (dmaByte page) s := by
  induction n generalizing i s with
  | zero => rfl
  | succ n ih => rw [dmaBytes, ih, List.range'_succ, List.foldl_cons]

/-- The processor with no DMA waiting. -/
def clearDma (c : Cpu) : Cpu := { c with dmaPage := none }

/-- The state at which the transfer begins: the wait cycle, and one more where the count is odd after it (R108). -/
def dmaStart (s : State) : State :=
  afterReads (List.replicate (1 + (s.cpu.cycles + 1) % 2) s.cpu.pc) (onCpu clearDma s)

theorem oamDma_eq (page : Byte) (s : State) :
    oamDma page s = (List.range 256).foldl (dmaByte page) (dmaStart s) := by
  have hwait : ∀ u : State, (if (readPc u).cpu.cycles % 2 = 1 then readPc (readPc u) else readPc u) =
      afterReads (List.replicate (1 + (u.cpu.cycles + 1) % 2) u.cpu.pc) u := by
    intro u
    rw [← times_readPc, readPc_cycles]
    rcases Nat.mod_two_eq_zero_or_one (u.cpu.cycles + 1) with h | h
    · rw [if_neg (by omega), h]; rfl
    · rw [if_pos h, h]; rfl
  unfold oamDma
  dsimp only
  rw [hwait, dmaBytes_eq_foldl, List.range_eq_range']
  rfl

theorem dmaByte_cpu (page : Byte) (s : State) (i : Nat) :
    (dmaByte page s i).cpu = s.cpu.spent 2 (dmaByte page s i) := by
  have hread := (readOnly_rd s (wordOf page (BitVec.ofNat 8 i))).cpu
  have hwrite := wr_cpu (rd s (wordOf page (BitVec.ofNat 8 i))).2 0x2004 (rd s (wordOf page (BitVec.ofNat 8 i))).1
  rw [dmaAfter_of_ne _ _ (by decide), hread, Cpu.spent_spent] at hwrite
  exact hwrite

theorem foldl_dmaByte_cpu (page : Byte) (is : List Nat) (s : State) :
    (is.foldl (dmaByte page) s).cpu = s.cpu.spent (2 * is.length) (is.foldl (dmaByte page) s) := by
  induction is generalizing s with
  | nil => rfl
  | cons i is ih =>
    rw [List.foldl_cons, ih, dmaByte_cpu, Cpu.spent_spent, List.length_cons, Nat.mul_succ, Nat.add_comm]

/-- The whole DMA: 513 cycles, or 514 from an even count, and no DMA waits after it (R108). -/
theorem oamDma_cpu (page : Byte) (s : State) :
    (oamDma page s).cpu = (clearDma s.cpu).spent (513 + (s.cpu.cycles + 1) % 2) (oamDma page s) := by
  have hstart := (readOnly_afterReads (List.replicate (1 + (s.cpu.cycles + 1) % 2) s.cpu.pc) (onCpu clearDma s)).cpu
  have hbytes := foldl_dmaByte_cpu page (List.range 256) (dmaStart s)
  rw [← oamDma_eq, dmaStart, hstart, Cpu.spent_spent, List.length_replicate, List.length_range] at hbytes
  have hcount : 1 + (s.cpu.cycles + 1) % 2 + 2 * 256 = 513 + (s.cpu.cycles + 1) % 2 := by omega
  rwa [hcount] at hbytes

theorem cycled_foldl_dmaByte {s t : State} {n : Nat} (page : Byte) (is : List Nat) (h : Cycled s n t) :
    Cycled s (n + 2 * is.length) (is.foldl (dmaByte page) t) := by
  induction is generalizing n t with
  | nil => exact h
  | cons i is ih =>
    have hbyte : Cycled s (n + 2) (dmaByte page t i) := (h.read _).write 0x2004 _
    rw [List.foldl_cons]
    exact (ih hbyte).cast (by rw [List.length_cons]; omega)

theorem cycled_attachedDma (s : State) : ∃ n ≤ 514, Cycled s n (attachedDma s) := by
  unfold attachedDma
  split
  · next page _ =>
    rw [oamDma_eq]
    have hstart : Cycled s _ (dmaStart s) := (Cycled.refl.regs (f := clearDma) fun _ => rfl).reads _
    refine ⟨_, ?_, cycled_foldl_dmaByte page (List.range 256) hstart⟩
    simp only [List.length_replicate, List.length_range]
    omega
  · exact ⟨0, by decide, .refl⟩

theorem attachedDma_dmaPage (s : State) : (attachedDma s).cpu.dmaPage = none := by
  unfold attachedDma
  split
  · rw [oamDma_cpu]; rfl
  · assumption

/-! ### The cycles of a step -/

/-- The most cycles of an instruction are 8, the fewest 2 (R150). -/
theorem cycleEntry_bounds (op : Byte) :
    2 ≤ (cycleEntry op).1 ∧ (cycleEntry op).1 + (cycleEntry op).2 ≤ 8 := by
  have hrows : ∀ i j : Fin 16, 2 ≤ ((cycleRows.getD i []).getD j (0, 0)).1 ∧
      ((cycleRows.getD i []).getD j (0, 0)).1 + ((cycleRows.getD i []).getD j (0, 0)).2 ≤ 8 := by decide
  have hop : op.toNat < 256 := op.isLt
  exact hrows ⟨op.toNat / 16, by omega⟩ ⟨op.toNat % 16, by omega⟩

theorem intCycles_count_bounds (n : IntCycles) : 6 ≤ n.count ∧ n.count ≤ 7 := by cases n <;> decide

theorem cycled_begun {s t : State} {n : Nat} (h : Cycled s n t) : Cycled s n t.begun :=
  h.regs (f := fun c => { c with tick := 0, micro := .idle }) fun _ => rfl

theorem cycled_served (vector : Word) (s : State) : Cycled s s.chip.intCycles.count (served vector s) := by
  have hbegin : Cycled s 0 (onCpu clearNmi (endStep s)) := (cycled_begun .refl).regs (f := clearNmi) fun _ => rfl
  exact cycled_begun ((hbegin.interrupt vector).cast (Nat.zero_add _))

/-- A step is 1 to 522 bus cycles: one halted, an interrupt service, or an instruction and a DMA. -/
theorem cycled_step {s t : State} (h : step s = .next t) : ∃ n, Cycled s n t ∧ 1 ≤ n ∧ n ≤ 8 + 514 := by
  have hint := intCycles_count_bounds s.chip.intCycles
  rcases step_cases s with ⟨-, hs⟩ | ⟨-, -, hs⟩ | ⟨-, -, -, -, hs⟩ | ⟨-, u, hu, hs⟩
  · obtain rfl := next_inj (h.symm.trans hs)
    exact ⟨1, cycled_begun (Cycled.refl.read 0xFFFF), by decide, by decide⟩
  · obtain rfl := next_inj (h.symm.trans hs)
    exact ⟨_, cycled_served vecNmi s, by omega, by omega⟩
  · obtain rfl := next_inj (h.symm.trans hs)
    exact ⟨_, cycled_served vecIrq s, by omega, by omega⟩
  · obtain rfl := next_inj (h.symm.trans hs)
    obtain ⟨n, u', hu', hinstr, hleast, hmost⟩ := cycled_exec_fetchInstr s.begun
    obtain rfl := next_inj (hu.symm.trans hu')
    obtain ⟨d, hd, hdma⟩ := cycled_attachedDma u
    have hbounds := cycleEntry_bounds (peek s.begun s.begun.cpu.pc)
    have hbegin : Cycled s 0 s.begun := cycled_begun .refl
    exact ⟨0 + (n + d), hbegin.trans (cycled_begun (hinstr.trans hdma)), by omega, by omega⟩

/-- A property that every bus cycle and every change of registers keeps, every step keeps. -/
theorem step_keeps {P : State → Prop} (hread : ∀ u a, P u → P (rd u a).2) (hwrite : ∀ u a v, P u → P (wr u a v))
    (hregs : ∀ u f, P u → P (onCpu f u)) {s t : State} (h : step s = .next t) (hs : P s) : P t := by
  obtain ⟨n, hcycled, -⟩ := cycled_step h
  exact hcycled.keeps hread hwrite hregs hs

/-- Settles O38: each bus cycle keeps the invariant (Laws/Invariant.lean), and a step is bus cycles and register changes. -/
theorem stepKeepsTheInvariant : Obligations.StepKeepsTheInvariant := fun _ _ hs h =>
  step_keeps (P := State.Inv) (fun _ a => inv_rd a) (fun _ a v => inv_wr a v) (fun _ f => inv_onCpu f) h hs

/-- A step's end leaves a boundary where no DMA waits (R404). -/
theorem atBoundary_begun {s : State} (h : s.cpu.dmaPage = none) : s.begun.AtBoundary := ⟨rfl, h, rfl⟩

theorem atBoundary_served {vector : Word} (h : 0x8000 ≤ vector.toNat) (h' : vector.toNat < 0xFFFF) {s : State}
    (hdma : s.cpu.dmaPage = none) : (served vector s).AtBoundary := by
  have hkept : (served vector s).cpu.dmaPage = none := by
    rw [served_eq_ended h h']
    exact hdma
  rw [served] at hkept ⊢
  generalize interrupt vector (onCpu clearNmi (endStep s)) = u at hkept
  exact atBoundary_begun hkept

/-- Settles O40: every arm ends with `endStep`; an interrupt service or a halted cycle asks for no DMA, and after an
instruction the attached DMA has emptied the request. -/
theorem stepEndsAtABoundary : Obligations.StepEndsAtABoundary := by
  intro s t hdma h
  obtain ⟨n, hcycled, hleast, hmost⟩ := cycled_step h
  have hcycles := hcycled.cycles
  refine ⟨?_, by omega, by omega⟩
  rcases step_cases s with ⟨-, hs⟩ | ⟨-, -, hs⟩ | ⟨-, -, -, -, hs⟩ | ⟨-, u, -, hs⟩
  all_goals obtain rfl := next_inj (h.symm.trans hs)
  · exact atBoundary_begun ((rd_dmaPage s 0xFFFF).trans hdma)
  · exact atBoundary_served (by decide) (by decide) hdma
  · exact atBoundary_served (by decide) (by decide) hdma
  · exact atBoundary_begun (attachedDma_dmaPage u)

/-! ### What no program changes (R66, R106, R586) -/

/-- The program ROM, the character ROM, the identity of the cartridge, the buttons and the chip are the same. -/
structure RomFrame (s t : State) : Prop where
  prg      : t.cart.prg = s.cart.prg
  prgLen   : t.cart.prgLen = s.cart.prgLen
  chrLen   : t.cart.chrLen = s.cart.chrLen
  chrIsRam : t.cart.chrIsRam = s.cart.chrIsRam
  chr      : s.cart.chrIsRam = false → t.cart.chr = s.cart.chr
  header   : t.cart.mirroringHdr = s.cart.mirroringHdr
  mapperId : t.cart.mapperId = s.cart.mapperId
  battery  : t.cart.hasBattery = s.cart.hasBattery
  buttons1 : t.pad1.buttons = s.pad1.buttons
  buttons2 : t.pad2.buttons = s.pad2.buttons
  chip     : t.chip = s.chip

theorem RomFrame.refl (s : State) : RomFrame s s := by constructor <;> intros <;> rfl

theorem RomFrame.trans {s t u : State} (h : RomFrame s t) (k : RomFrame t u) : RomFrame s u :=
  ⟨k.prg.trans h.prg, k.prgLen.trans h.prgLen, k.chrLen.trans h.chrLen, k.chrIsRam.trans h.chrIsRam,
    fun hrom => (k.chr (h.chrIsRam.trans hrom)).trans (h.chr hrom), k.header.trans h.header,
    k.mapperId.trans h.mapperId, k.battery.trans h.battery, k.buttons1.trans h.buttons1, k.buttons2.trans h.buttons2,
    k.chip.trans h.chip⟩

theorem MemFrame.rom {s t : State} (h : MemFrame s t) : RomFrame s t :=
  ⟨h.prg, h.prgLen, h.chrLen, h.chrIsRam, fun _ => h.chr, h.header, h.mapperId, h.battery, h.buttons1, h.buttons2, h.chip⟩

/-- Only character RAM is written through the data port (R586). -/
theorem ppuWrite_chr_of_rom {s : State} (h : s.cart.chrIsRam = false) (a : BitVec 14) (v : Byte) :
    (ppuWrite s a v).cart.chr = s.cart.chr := by
  unfold ppuWrite ppuChrWrite ntWrite
  dsimp only
  split
  · split
    · rfl
    · rw [if_neg (ne_true_of_eq_false h)]
  · split
    · split <;> rfl
    · rfl

theorem ppuRegWrite_chr_of_rom {s : State} (h : s.cart.chrIsRam = false) (r : PpuReg) (v : Byte) :
    (ppuRegWrite s r v).cart.chr = s.cart.chr := by
  by_cases hr : r = .data
  · rw [hr]
    exact ppuWrite_chr_of_rom (s := { s with ppu := { s.ppu with ioLatch := v } }) h _ v
  · exact ((pictureWrite_ppuRegWrite s r v).video hr).2.2.1

theorem romFrame_ioWrite (s : State) (a : Word) (v : Byte) : RomFrame s (ioWrite s a v) := by
  have hpad : ∀ (p : Pad) (b : Bool), (p.strobed b).buttons = p.buttons := fun p b => by unfold Pad.strobed; split <;> rfl
  unfold ioWrite
  split
  · constructor <;> intros <;> rfl
  split
  · constructor <;> intros <;> rfl
  split
  · constructor <;> intros <;> rfl
  split
  · exact ⟨rfl, rfl, rfl, rfl, fun _ => rfl, rfl, rfl, rfl, hpad _ _, hpad _ _, rfl⟩
  · constructor <;> intros <;> rfl

theorem romFrame_openBus (s : State) (v : Byte) : RomFrame s { s with openBus := v } := by
  constructor <;> intros <;> rfl

theorem romFrame_busWrite (s : State) (a : Word) (v : Byte) : RomFrame s (busWrite s a v) := by
  unfold busWrite
  dsimp only
  split
  · constructor <;> intros <;> rfl
  · have h := pictureWrite_ppuRegWrite { s with openBus := v } (ppuRegOf a) v
    obtain ⟨hprg, hprgLen, hchrLen, hchrIsRam⟩ := h.storage
    obtain ⟨hheader, hid, hbattery, hchip⟩ := h.identity
    exact ⟨hprg, hprgLen, hchrLen, hchrIsRam, fun hrom => ppuRegWrite_chr_of_rom (s := { s with openBus := v }) hrom _ v,
      hheader, hid, hbattery, congrArg Pad.buttons h.pads.1, congrArg Pad.buttons h.pads.2, hchip⟩
  · exact (romFrame_openBus s v).trans (romFrame_ioWrite _ a v)
  · obtain ⟨var, hcart, -⟩ := cpuWrite_eq s.cart s.chip a v
    rw [hcart]
    constructor <;> intros <;> rfl

/-- Settles O42: a read cycle changes no memory, a write cycle nothing of this frame. -/
theorem stepLeavesRomAndInputs : Obligations.StepLeavesRomAndInputs := by
  intro s t h
  have hframe : RomFrame s t := step_keeps (P := RomFrame s) (fun u a hu => hu.trans (memFrame_rd u a).rom)
    (fun u a v hu => (hu.trans (romFrame_busWrite u a v)).trans (memFrame_wr u a v).rom)
    (fun u f hu => hu.trans ((MemFrame.refl u).onCpu f).rom) h (.refl s)
  obtain ⟨h1, h2, h3, h4, h5, h6, h7, h8, h9, h10, h11⟩ := hframe
  exact ⟨h1, h2, h3, h4, h5, h6, h7, h8, h9, h10, h11⟩

end Sys2Proof.Machine
end

section
/-! Operands (40_addressing_modes.md): the address and access cycles as lists of reads and writes, and their count. -/

namespace Sys2Proof.Machine

theorem addressCycles_eq (k : Kind) (p : Place) (s : State) :
    addressCycles k p s = (effectiveAddr p s, afterReads (addressReads k p s) s) :=
  Prod.ext (addressCycles_fst k p s) (addressCycles_snd k p s)

theorem rd_eq (s : State) (a : Word) : rd s a = (peek s a, afterReads [a] s) :=
  Prod.ext (rd_fst s a) (by rw [afterReads_one, dummyRead])

/-- A read at the end of the address cycles (R183). -/
theorem rd_afterReads (as : List Word) (a : Word) (s : State) :
    rd (afterReads as s) a = (peek (afterReads as s) a, afterReads (as ++ [a]) s) := by
  rw [rd_eq, afterReads_append]

/-- Settles O6: the address cycles are reads (`addressCycles_fst`, `addressCycles_snd`), and the access follows them. -/
theorem addressCyclesOfEveryMode : Obligations.AddressCyclesOfEveryMode := by
  refine ⟨addressCycles_eq, fun _ _ => rfl, fun p s v f => ⟨?_, ?_, ?_⟩⟩
  · rw [readOperand, addressCycles_eq]
    exact rd_afterReads _ _ s
  · rw [writeOperand, addressCycles_eq]
  · rw [modifyOperand, addressCycles_eq]
    dsimp only
    rw [rd_afterReads]

/-- The carry out of the low byte is the change of the high byte (R186). -/
theorem crossesPage_iff (base : Word) (index : Byte) :
    crossesPage base index = true ↔ hiByte (base + index.setWidth 16) ≠ hiByte base := by
  have hbase := base.isLt
  have hindex := index.isLt
  rw [crossesPage, decide_eq_true_eq, loByte_toNat, ne_eq, ← BitVec.toNat_inj, hiByte_toNat, hiByte_toNat,
    BitVec.toNat_add, BitVec.toNat_setWidth]
  omega

theorem length_le_totalCycles (k : Kind) (p : Place) (b : Bool) : p.length ≤ totalCycles k p b := by
  cases k <;> cases p <;> simp [totalCycles, Place.length] <;> omega

/-- The cycles of an operand access and the bytes of the instruction are the table's (R187). -/
theorem remainingCycles_add_length (k : Kind) (p : Place) (s : State) :
    remainingCycles k p s + p.length = totalCycles k p (crossed p s) :=
  Nat.sub_add_cancel (length_le_totalCycles k p _)

/-- Settles O7: the carry by arithmetic on the bytes, the cycles from the operand sequences' own counts. -/
theorem pageCrossingAndCycleTable : Obligations.PageCrossingAndCycleTable := by
  refine ⟨crossesPage_iff, fun p s v f => ⟨?_, ?_, ?_⟩⟩
  · have h := congrArg Cpu.cycles (readOnly_readOperand (.mem p) s).cpu
    rw [h, ← remainingCycles_add_length, ← Nat.add_assoc]
    rfl
  · have h := congrArg Cpu.cycles (writeOperand_cpu p v s)
    rw [h, ← remainingCycles_add_length, ← Nat.add_assoc]
    unfold dmaAfter
    split <;> rfl
  · have h := congrArg Cpu.cycles (modifyOperand_cpu p f s)
    rw [h, ← remainingCycles_add_length, ← Nat.add_assoc]
    unfold dmaAfter
    split <;> rfl

end Sys2Proof.Machine
end

section
/-! Jumps (44_control_flow.md R234, R235): the reads and pushes of JMP and JSR in order, then PC. -/

namespace Sys2Proof.Machine

theorem exec_jmpInd_eq (ptr : Word) (s : State) :
    let p2 := wordOf (hiByte ptr) (loByte ptr + 1)
    exec (.jmpInd ptr) s = .next (onCpu (setPc (wordOf (peek (afterReads [ptr] s) p2) (peek s ptr)))
      (afterReads [ptr, p2] s)) := by
  change execJmpInd ptr s = _
  unfold execJmpInd
  simp only [rd_fst, afterReads_cons, afterReads_nil]

/-- Settles O17: the absolute form writes PC alone; the indirect form is two reads, then PC. -/
theorem jumpsSetPc : Obligations.JumpsSetPc :=
  ⟨fun _ _ => ⟨rfl, rfl⟩, fun ptr s => ⟨rfl, completes_afterReads (regOnly_setPc _) (exec_jmpInd_eq ptr s)⟩⟩

/-- The bus cycles of JSR after its low byte, in order (R235). -/
def jsrCycles (s : State) : List BusCycle :=
  [.read (stackAddr s.cpu.s), .write (stackAddr s.cpu.s) (hiByte s.cpu.pc),
    .write (stackAddr (s.cpu.s - 1)) (loByte s.cpu.pc), .read s.cpu.pc]

theorem jsrCycles_inStack (s : State) : ∀ c ∈ jsrCycles s, c.InStack := by
  simp only [jsrCycles, List.forall_mem_cons, BusCycle.InStack, exists_apply_eq_apply', List.not_mem_nil, false_imp_iff,
    implies_true, and_self]

theorem exec_jsrAbs_eq (w : Word) (s : State) :
    exec (.jsrAbs w) s = .next (onCpu (fun c => setPc w (setS (s.cpu.s - 2) c)) (afterCycles (jsrCycles s) s)) := by
  change execJsrAbs w s = _
  unfold execJsrAbs
  simp only [readPc_eq, readStack_eq, pushWord_eq_onCpu, rd_onCpu (regOnly_setS _), onCpu_onCpu, onCpu_cpu, setS_pc, rd_s,
    jsrCycles, afterCycles_cons, afterCycles_nil, BusCycle.after_read, BusCycle.after_write, wr_pc, rd_pc]

/-- The word that JSR stacks, high byte first (R82, R235). -/
theorem stacked_pushWord (w : Word) {s : State} (hs : Cells.wf s.ram) : Stacked w none s (pushWord w s) := by
  have hs1 : (push (hiByte w) s).cpu.s = s.cpu.s - 1 := by rw [push_cpu]; rfl
  have hcell : stackCell (s.cpu.s - 1) ≠ stackCell s.cpu.s := mt stackCell_inj.1 (by bv_omega)
  intro k
  rw [pushWord, push_ram, push_ram, hs1, Cells.read_write (Cells.wf_write _ _ hs), Cells.read_write hs]
  by_cases h1 : k = stackCell (s.cpu.s - 1)
  · simp only [h1, if_true, if_neg hcell]
  · simp only [if_neg h1]

/-- Of the cycles of JSR the two pushes alone touch RAM. -/
theorem afterCycles_jsrCycles_ram (s : State) :
    (afterCycles (jsrCycles s) s).ram = (pushWord s.cpu.pc (readStack s)).ram := by
  rw [pushWord_eq_onCpu, onCpu_ram, readStack_eq, rd_s]
  simp only [jsrCycles, afterCycles_cons, afterCycles_nil, BusCycle.after_read, BusCycle.after_write, rd_ram]

/-- What JSR leaves: the four cycles, then S and PC (R235). -/
def afterJsr (w : Word) (s : State) : State :=
  (afterCycles (jsrCycles s) s).withRegs { s.cpu with pc := w, s := s.cpu.s - 2 } 4

theorem onCpu_afterJsrCycles (w : Word) (s : State) :
    onCpu (fun c => setPc w (setS (s.cpu.s - 2) c)) (afterCycles (jsrCycles s) s) = afterJsr w s :=
  onCpu_eq_withRegs ((regOnly_setPc w).comp (regOnly_setS _)) (afterCycles_cpu_of_inStack (jsrCycles_inStack s) s)

theorem stackOnly_afterJsr (w : Word) (s : State) : StackOnly s (afterJsr w s) := by
  rw [← onCpu_afterJsrCycles]
  exact (stackOnly_afterCycles (jsrCycles_inStack s) s).onCpu _

theorem stacked_afterJsr (w : Word) {s : State} (hs : Cells.wf s.ram) : Stacked s.cpu.pc none s (afterJsr w s) := by
  have hread := readOnly_readStack s
  obtain ⟨-, -, -, hsp, -⟩ := hread.reg
  intro k
  have hpush := stacked_pushWord s.cpu.pc (s := readStack s) (by rwa [hread.mem.ram]) k
  rw [hsp, hread.mem.ram] at hpush
  rw [← hpush, ← onCpu_afterJsrCycles, onCpu_ram, afterCycles_jsrCycles_ram]

/-- Settles O18: the four cycles of JSR, then S and PC; the bytes stacked are those of `pushWord`. -/
theorem jsrStacksTheReturnAddress : Obligations.JsrStacksTheReturnAddress := fun w s =>
  ⟨rfl, (exec_jsrAbs_eq w s).trans (congrArg Host.Outcome.next (onCpu_afterJsrCycles w s)), stackOnly_afterJsr w s,
    fun hs => stacked_afterJsr w hs.ram.1⟩

end Sys2Proof.Machine
end

section
/-! The cycle of every bus access (64_system_step_and_host.md R622): counters, three dots, one audio tick, the NMI line. -/

namespace Sys2Proof.Machine

/-- The three dots of a cycle, after the counters. -/
def afterDots (s : State) : State := ppuDot (ppuDot (ppuDot (countCycle s)))

theorem dotFrame_afterDots (s : State) : DotFrame (countCycle s) (afterDots s) := dotFrame_threeDots _

theorem tick_eq_afterDots (s : State) : tick s = observeNmi (apuTick (afterDots s)) := by
  unfold tick unitsCycle afterDots
  rw [mapperCycle_eq]

theorem observeNmi_apuTick_apu (u : State) : (observeNmi (apuTick u)).apu =
    u.apu.tick u.chip.noiseTableLen u.cpu.cycles fun a => (cpuRead u.cart a).getD u.openBus := rfl

theorem tick_apu (s : State) : (tick s).apu =
    s.apu.tick s.chip.noiseTableLen (s.cpu.cycles + 1) fun a => (cpuRead (afterDots s).cart a).getD s.openBus := by
  have h := dotFrame_afterDots s
  rw [tick_eq_afterDots, observeNmi_apuTick_apu, h.apu, h.chip, h.cpu, h.openBus]
  rfl

theorem observeNmi_apuTick_fields (u : State) :
    let t := observeNmi (apuTick u)
    t.ppu = u.ppu ∧ t.cart = u.cart ∧ t.pad1 = u.pad1 ∧ t.pad2 = u.pad2 ∧ t.strobe = u.strobe :=
  ⟨rfl, rfl, rfl, rfl, rfl⟩

/-- Settles O35: the dots change nothing but the Picture Unit and the mapper's registers (`DotFrame`), the audio tick the
Audio Unit alone, and the NMI line is observed last. -/
theorem tickOrderAndNmiLatch : Obligations.TickOrderAndNmiLatch := by
  refine ⟨fun s => ?_, fun s => ⟨tick_nmiPrev s, ?_⟩⟩
  · have h := dotFrame_afterDots s
    obtain ⟨hppu, hcart, hpad1, hpad2, hstrobe⟩ := observeNmi_apuTick_fields (afterDots s)
    rw [← tick_eq_afterDots] at hppu hcart hpad1 hpad2 hstrobe
    exact ⟨hppu, hcart, tick_apu s, tick_spent s, tick_ram s, tick_openBus s, hpad1.trans h.pad1, hpad2.trans h.pad2,
      hstrobe.trans h.strobe⟩
  · rw [tick_nmiPending, nmiLine, Bool.or_eq_true, Bool.and_eq_true, Bool.and_eq_true, Bool.not_eq_true', and_assoc]

end Sys2Proof.Machine
end

section
/-! The fetch (30_encoding.md R140, 60_exceptions.md R404): the step at a fetching boundary by the three bytes from PC on,
and those bytes in internal RAM. -/

namespace Sys2Proof.Machine

/-! ### The bytes fetched -/

theorem fetch_cpu (s : State) : (fetch s).2.cpu = ({ s.cpu with pc := s.cpu.pc + 1 }).spent 1 (fetch s).2 := by
  rw [fetch_snd]
  exact spent_setPc (rd_cpu s s.cpu.pc) _

theorem fetches_cpu (n : Nat) (s : State) :
    (fetches n s).cpu = ({ s.cpu with pc := s.cpu.pc + BitVec.ofNat 16 n }).spent n (fetches n s) := by
  induction n with
  | zero =>
    have hpc : s.cpu.pc + BitVec.ofNat 16 0 = s.cpu.pc := BitVec.add_zero _
    rw [hpc]
    rfl
  | succ n ih =>
    have h := fetch_cpu (fetches n s)
    rw [← fetches_succ, ih] at h
    rw [h, Nat.add_one, ← Nat.add_one, BitVec.ofNat_add, ← BitVec.add_assoc]
    rfl

theorem memFrame_fetches (n : Nat) (s : State) : MemFrame s (fetches n s) := by
  induction n with
  | zero => exact .refl s
  | succ n ih =>
    rw [fetches_succ]
    exact ih.trans (memFrame_fetch _)

/-- Three bytes that decode: the instruction, and its length (R140, R141). -/
theorem decode_three_iff {op b1 b2 : Byte} {i : Instr} {rest : List Byte} (h : decode [op, b1, b2] = .ok (i, rest)) :
    i = decodeBytes op b1 b2 ∧ (encode i).length = lengthOf op := by
  have hbytes := congrArg List.length (encode_append_of_decode h)
  rw [decode_three] at h
  obtain ⟨rfl, rfl⟩ := Prod.mk.inj (Except.ok.inj h)
  have hlen : 1 ≤ lengthOf op ∧ lengthOf op ≤ 3 := by
    rcases lengthOf_cases op with ⟨h, -⟩ | ⟨h, -⟩ | h <;> omega
  rw [List.length_append, List.length_drop] at hbytes
  simp only [List.length_cons, List.length_nil] at hbytes
  exact ⟨rfl, by omega⟩

/-- The step at a fetching boundary, from the three bytes (R404). -/
theorem step_of_bytes {s : State} (h : Fetching s) {i : Instr} {rest : List Byte}
    (hdecode : decode [atPc s.begun, atPc (fetches 1 s.begun), thirdByte s.begun] = .ok (i, rest)) :
    step s = mapNext (fun t => (attachedDma t).begun) (exec i (fetches (fetchedBytes (atPc s.begun)) s.begun)) := by
  rw [step_of_fetching h, fetchInstr_eq, (decode_three_iff hdecode).1]

/-- Which of the three fetches `exec` begins after (log 6). -/
theorem fetches_fetchedBytes (s : State) (op : Byte) :
    (if lengthOf op = 1 then fetches 1 s else if lengthOf op = 2 ∨ op = 0x20 then fetches 2 s else fetches 3 s) =
      fetches (fetchedBytes op) s := by
  by_cases hop : op = opJsr
  · have hjsr : lengthOf opJsr = 3 := rfl
    rw [fetchedBytes, if_pos hop, hop, hjsr]
    rfl
  · have hne : op ≠ 0x20 := hop
    rw [fetchedBytes, if_neg hop]
    rcases lengthOf_cases op with ⟨h, -⟩ | ⟨h, -⟩ | h
    · rw [h, if_pos rfl]
    · rw [h, if_neg (by decide), if_pos (.inl rfl)]
    · rw [h, if_neg (by decide), if_neg (not_or.2 ⟨by decide, hne⟩)]

theorem fetches_one (s : State) : (fetch s).2 = fetches 1 s := rfl

theorem fetch_fetches_one (s : State) : (fetch (fetches 1 s)).2 = fetches 2 s := (fetches_succ 1 s).symm

theorem fetch_fetches_two (s : State) : (fetch (fetches 2 s)).2 = fetches 3 s := (fetches_succ 2 s).symm

/-- Settles O3: a fetch reads at PC and steps it; the instruction that the step runs is that of the three bytes. -/
theorem stepRunsTheDecodedInstruction : Obligations.StepRunsTheDecodedInstruction := by
  refine ⟨fun s => ⟨fetch_fst s, fetch_cpu s, memFrame_fetch s⟩, fun s h => ?_⟩
  dsimp only
  rw [fetches_one s.begun, fetch_fetches_one, fetch_fetches_two]
  intro i rest hdecode
  rw [step_of_bytes h hdecode, (decode_three_iff hdecode).2, ← atPc.eq_1, fetches_fetchedBytes]

/-! ### A RAM that is not in canonical form

`StepRunsTheInstructionInRam` assumes nothing of the state's RAM. In a list that is not in canonical form a cell listed too
late is hidden by a higher index before it, and a write of 0 to that index takes it off the list and shows the cell. The
pushes of a JSR can do so with the cell of its own third byte. -/

theorem oamDma_pc (page : Byte) (s : State) : (oamDma page s).cpu.pc = s.cpu.pc := by
  have h := oamDma_cpu page s
  generalize oamDma page s = t at h ⊢
  rw [h]
  rfl

theorem attachedDma_pc (s : State) : (attachedDma s).cpu.pc = s.cpu.pc := by
  unfold attachedDma
  split
  · exact oamDma_pc _ s
  · rfl

theorem begun_pc (s : State) : s.begun.cpu.pc = s.cpu.pc := rfl

theorem mapNext_next (f : State → State) (s : State) : mapNext f (.next s) = .next (f s) := rfl

/-- A step that runs JSR to `w` ends with PC = `w` (R235). -/
theorem pc_of_jsrAbs {w : Word} {f t : State}
    (h : mapNext (fun u => (attachedDma u).begun) (exec (.jsrAbs w) f) = .next t) : t.cpu.pc = w := by
  rw [exec_jsrAbs_eq, mapNext_next] at h
  rw [← next_inj h, begun_pc, attachedDma_pc, onCpu_cpu, setPc_pc]

/-- JSR at 0x0010 with S = 0xFF; the cell of its third byte, 0x12, is listed after 0x1FF, so it reads as 0. -/
def hiddenThirdByte : State :=
  { State.reset with
    cpu := { State.reset.cpu with pc := 0x0010, s := 0xFF }
    ram := [(0x10, 0x20), (0x11, 0x34), (0x1FF, 0x01), (0x12, 0x80)] }

/-- The first push writes the high byte of PC, 0, to 0x1FF: JSR then reads 0x80 as its third byte. -/
theorem step_hiddenThirdByte : ∃ t, step hiddenThirdByte = .next t ∧ t.cpu.pc = 0x8034 := by
  have h : (match step hiddenThirdByte with | .next t => t.cpu.pc | _ => 0x0000) = 0x8034 := by decide +kernel
  obtain ⟨t, ht⟩ := everyStateHasANextState hiddenThirdByte
  rw [ht] at h
  exact ⟨t, ht, h⟩

/-- Refutes O4: where RAM is not in canonical form a JSR may read a third byte that RAM did not show before its pushes. -/
theorem not_stepRunsTheInstructionInRam : ¬ Obligations.StepRunsTheInstructionInRam := by
  intro h
  have hfetching : Fetching hiddenThirdByte := ⟨rfl, rfl, .inl rfl⟩
  obtain ⟨f, -, -, hstep⟩ := h hiddenThirdByte (.jsrAbs 0x0034) [] hfetching (by decide) (by decide)
  obtain ⟨t, ht, hpc⟩ := step_hiddenThirdByte
  have hw := pc_of_jsrAbs (hstep.symm.trans ht)
  rw [hpc] at hw
  exact absurd hw (by decide)

end Sys2Proof.Machine
end

section
/-! The state after reset (70_reset_and_hazards.md R650, R652): the reset sequence evaluated, and the invariant there. -/

namespace Sys2Proof.Machine

/-- Settles O37, by evaluation of the six cycles of the reset sequence. -/
theorem resetStateFollowsThePowerOnValues : Obligations.ResetStateFollowsThePowerOnValues := by
  refine ⟨?_, rfl, rfl, rfl, rfl, rfl, rfl⟩
  decide +kernel

/-- Settles O39: the memories of the reset state are empty, its counters in the raster, its cartridge has no storage. -/
theorem resetMeetsTheInvariant : Obligations.ResetMeetsTheInvariant :=
  { ram := sized_nil _
    memories := ⟨sized_nil _, sized_nil _, sized_nil _, sized_oam2Cleared, sized_nil _, sized_nil _⟩
    raster := ⟨by decide, by decide, rfl, by decide, rfl⟩
    storage := ⟨sized_nil _, sized_nil _, sized_nil _, sized_nil _, fun h => absurd rfl h, fun _ => rfl⟩
    channels := ⟨fun _ => rfl, fun _ => rfl, fun _ => rfl, fun _ => rfl, by decide, by decide, fun h => absurd rfl h,
      by decide⟩
    masked := trivial }

end Sys2Proof.Machine
end

section
/-! Object-memory DMA (20_memory.md R108): its accesses and cycles, and what it copies from a page of RAM while rendering is
off, when the dots leave the object memory address alone. -/

namespace Sys2Proof.Machine

/-! ### The object memory address while rendering is off -/

/-- With rendering off a dot runs no line of its fetch pipeline (R452). -/
theorem dotWork_of_not_rendering (line d : Nat) (s : State) :
    dotWork line d false s = whenDo (decide (line ≤ 239 ∧ 1 ≤ d ∧ d ≤ 256)) (onPpu (outputPixel (d - 1) line))
      (onPpu dotFlags s) := rfl

theorem dotFlags_oamAddr (p : Ppu) : (dotFlags p).oamAddr = p.oamAddr := by
  unfold dotFlags
  split
  · rfl
  · split <;> rfl

theorem advanceCounters_oamAddr (re : Bool) (s : State) : (advanceCounters re s).ppu.oamAddr = s.ppu.oamAddr := by
  unfold advanceCounters
  split
  · unfold nextLine
    split <;> rfl
  · rfl

theorem ppuDot_oamAddr {s : State} (h : rendering s.ppu = false) : (ppuDot s).ppu.oamAddr = s.ppu.oamAddr := by
  rw [ppuDot, advanceCounters_oamAddr, h, dotWork_of_not_rendering]
  unfold whenDo
  split <;> exact dotFlags_oamAddr s.ppu

theorem rendering_ppuDot (s : State) : rendering (ppuDot s).ppu = rendering s.ppu := by
  rw [rendering, (dotFrame_ppuDot s).mask, ← rendering.eq_1]

theorem tick_oamAddr {s : State} (h : rendering s.ppu = false) : (tick s).ppu.oamAddr = s.ppu.oamAddr := by
  have hcount : rendering (countCycle s).ppu = false := h
  rw [tick_eq_afterDots, (observeNmi_apuTick_fields (afterDots s)).1, afterDots,
    ppuDot_oamAddr (by rwa [rendering_ppuDot, rendering_ppuDot]), ppuDot_oamAddr (by rwa [rendering_ppuDot]),
    ppuDot_oamAddr hcount]
  rfl

/-! ### One byte of the transfer -/

/-- `t` differs from `s` in object memory alone, of all memories and written registers. -/
def OamOnly (s t : State) : Prop := MemFrame { s with ppu := { s.ppu with oam := t.ppu.oam } } t

theorem OamOnly.trans {s t u : State} (h : OamOnly s t) (k : OamOnly t u) : OamOnly s u := by
  cases h; cases k; constructor <;> simp_all only

theorem OamOnly.of_mem {s t : State} (h : MemFrame s t) : OamOnly s t := by
  cases h; constructor <;> first | rfl | assumption

theorem OamOnly.rendering {s t : State} (h : OamOnly s t) : rendering t.ppu = rendering s.ppu := by
  rw [Machine.rendering, show t.ppu.mask = s.ppu.mask from h.mask, ← rendering.eq_1]

theorem ram_of_oamOnly {s t : State} (h : OamOnly s t) : t.ram = s.ram :=
  MemFrame.ram (s := { s with ppu := { s.ppu with oam := t.ppu.oam } }) h

theorem regionOf_oamData : regionOf 0x2004 = .picture := rfl

theorem busWrite_oamData (s : State) (v : Byte) :
    busWrite s 0x2004 v =
      { s with
        openBus := v
        ppu := { s.ppu with
          ioLatch := v, oam := Cells.write s.ppu.oam s.ppu.oamAddr.toNat v, oamAddr := s.ppu.oamAddr + 1 } } := rfl

theorem oamOnly_wr_oamData (s : State) (v : Byte) : OamOnly s (wr s 0x2004 v) := by
  have hwrite : OamOnly s (busWrite s 0x2004 v) := by
    rw [busWrite_oamData]
    constructor <;> rfl
  exact hwrite.trans (.of_mem (memFrame_wr s 0x2004 v))

theorem wr_oamData_oam (s : State) (v : Byte) :
    (wr s 0x2004 v).ppu.oam = Cells.write s.ppu.oam s.ppu.oamAddr.toNat v := by
  rw [(memFrame_wr s 0x2004 v).oam, busWrite_oamData]

theorem wr_oamData_oamAddr {s : State} (h : rendering s.ppu = false) (v : Byte) :
    (wr s 0x2004 v).ppu.oamAddr = s.ppu.oamAddr + 1 := by
  have hwrite : rendering (busWrite s 0x2004 v).ppu = false := h
  rw [wr, tick_oamAddr hwrite, busWrite_oamData]

theorem busRead_oamAddr (s : State) (a : Word) : (busRead s a).2.ppu.oamAddr = s.ppu.oamAddr := by
  have hmapper : (mapperRead s a).2.ppu = s.ppu := by unfold mapperRead; split <;> rfl
  unfold busRead
  split
  · rfl
  · cases ppuRegOf a <;> rfl
  · unfold ioRead
    repeat' split
    all_goals first | rfl | rw [hmapper]
  · rw [hmapper]

/-- A read leaves the object memory address, rendering off (R462). -/
theorem rd_oamAddr {s : State} (h : rendering s.ppu = false) (a : Word) :
    (rd s a).2.ppu.oamAddr = s.ppu.oamAddr := by
  have hread : rendering (busRead s a).2.ppu = false := (OamOnly.of_mem (memFrame_busRead s a)).rendering.trans h
  rw [rd_snd, tick_oamAddr hread, busRead_oamAddr]

theorem afterReads_oamAddr {s : State} (h : rendering s.ppu = false) (as : List Word) :
    (afterReads as s).ppu.oamAddr = s.ppu.oamAddr := by
  induction as generalizing s with
  | nil => rfl
  | cons a as ih =>
    have hread : rendering (rd s a).2.ppu = false := (OamOnly.of_mem (memFrame_rd s a)).rendering.trans h
    rw [afterReads_cons, ih hread, rd_oamAddr h]

/-! ### The transfer from a page of RAM -/

theorem regionOf_page {page : Byte} (h : page.toNat < 0x20) (b : Byte) : regionOf (wordOf page b) = .ram := by
  have hb := b.isLt
  rw [regionOf, if_pos]
  rw [wordOf_toNat]
  omega

theorem ramIndex_page (page : Byte) {i : Nat} (h : i < 256) :
    ramIndex (wordOf page (BitVec.ofNat 8 i)) = (256 * page.toNat + i) % 0x800 := by
  rw [ramIndex, wordOf_toNat, BitVec.toNat_ofNat, Nat.mod_eq_of_lt h, Nat.mul_comm]

section
variable {page : Byte} (hpage : page.toNat < 0x20) {s : State} (hoff : rendering s.ppu = false) {i : Nat}
  (hi : i < 256)
include hpage hoff hi

/-- One byte copied: to object memory at its address, which moves on (R108). -/
theorem dmaByte_of_ram :
    OamOnly s (dmaByte page s i) ∧ (dmaByte page s i).ppu.oamAddr = s.ppu.oamAddr + 1 ∧
      (dmaByte page s i).ppu.oam =
        Cells.write s.ppu.oam s.ppu.oamAddr.toNat (Cells.read s.ram ((256 * page.toNat + i) % 0x800)) := by
  have hram := regionOf_page hpage (BitVec.ofNat 8 i)
  have hread := memFrame_rd s (wordOf page (BitVec.ofNat 8 i))
  have hoff' : rendering (rd s (wordOf page (BitVec.ofNat 8 i))).2.ppu = false :=
    (OamOnly.of_mem hread).rendering.trans hoff
  refine ⟨(OamOnly.of_mem hread).trans (oamOnly_wr_oamData _ _), ?_, ?_⟩
  · rw [dmaByte, wr_oamData_oamAddr hoff', rd_oamAddr hoff]
  · rw [dmaByte, wr_oamData_oam, hread.oam, rd_oamAddr hoff, rd_fst_of_ram s hram, ramIndex_page page hi]

end

/-- What the first `k` bytes of the transfer leave. -/
structure Copied (page : Byte) (s : State) (k : Nat) (t : State) : Prop where
  frame   : OamOnly s t
  wf      : Cells.wf t.ppu.oam
  oamAddr : t.ppu.oamAddr = s.ppu.oamAddr + BitVec.ofNat 8 k
  bytes   : ∀ i < k, Cells.read t.ppu.oam ((s.ppu.oamAddr.toNat + i) % 256) =
    Cells.read s.ram ((256 * page.toNat + i) % 0x800)

theorem Copied.succ {page : Byte} (hpage : page.toNat < 0x20) {s t : State} (hoff : rendering s.ppu = false) {k : Nat}
    (hk : k < 256) (h : Copied page s k t) : Copied page s (k + 1) (dmaByte page t k) := by
  obtain ⟨hframe, haddr, hoam⟩ := dmaByte_of_ram hpage (h.frame.rendering.trans hoff) hk
  have haddress : t.ppu.oamAddr.toNat = (s.ppu.oamAddr.toNat + k) % 256 := by
    rw [h.oamAddr, BitVec.toNat_add, BitVec.toNat_ofNat, Nat.mod_eq_of_lt hk]
  refine ⟨h.frame.trans hframe, by rw [hoam]; exact Cells.wf_write _ _ h.wf, ?_, fun i hi => ?_⟩
  · rw [haddr, h.oamAddr, BitVec.add_assoc, BitVec.ofNat_add]
    rfl
  · rw [hoam, Cells.read_write h.wf, haddress, ram_of_oamOnly h.frame]
    rcases Nat.lt_succ_iff_lt_or_eq.1 hi with hlt | rfl
    · rw [if_neg (by omega), h.bytes i hlt]
    · rw [if_pos rfl]

theorem copied_foldl {page : Byte} (hpage : page.toNat < 0x20) {s : State} (hoff : rendering s.ppu = false)
    (hs : Cells.wf s.ppu.oam) {k : Nat} (hk : k ≤ 256) : Copied page s k ((List.range k).foldl (dmaByte page) s) := by
  induction k with
  | zero => exact ⟨.of_mem (.refl s), hs, (BitVec.add_zero _).symm, fun i hi => absurd hi (Nat.not_lt_zero i)⟩
  | succ k ih =>
    rw [List.range_succ, List.foldl_append]
    exact (ih (by omega)).succ hpage hoff (by omega)

/-! ### The whole DMA -/

theorem attachedDma_of_page {s : State} {page : Byte} (h : s.cpu.dmaPage = some page) :
    attachedDma s = oamDma page s := by rw [attachedDma, h]

theorem memFrame_dmaStart (s : State) : MemFrame s (dmaStart s) :=
  ((MemFrame.refl s).onCpu clearDma).trans (readOnly_afterReads _ _).mem

theorem dmaStart_oamAddr {s : State} (h : rendering s.ppu = false) : (dmaStart s).ppu.oamAddr = s.ppu.oamAddr := by
  have hclear : rendering (onCpu clearDma s).ppu = false := h
  rw [dmaStart, afterReads_oamAddr hclear, onCpu_ppu]

/-- The DMA of a page of RAM, rendering off: a copy of its 256 bytes, and the object memory address where it was. -/
theorem copied_oamDma {page : Byte} (hpage : page.toNat < 0x20) {s : State} (hoff : rendering s.ppu = false)
    (hs : Cells.wf s.ppu.oam) : Copied page (dmaStart s) 256 (oamDma page s) := by
  have hframe := memFrame_dmaStart s
  rw [oamDma_eq]
  exact copied_foldl hpage ((OamOnly.of_mem hframe).rendering.trans hoff) (by rwa [hframe.oam]) (Nat.le_refl _)

/-- Settles O43: the transfer as a fold over the indices; from RAM each byte is one write at the moving address. -/
theorem dmaCopiesAPage : Obligations.DmaCopiesAPage := by
  intro s page hdma
  dsimp only
  rw [attachedDma_of_page hdma]
  refine ⟨oamDma_eq page s, oamDma_cpu page s, fun hs hpage hoff => ?_⟩
  have hframe := memFrame_dmaStart s
  have h := copied_oamDma hpage hoff hs.memories.oam.1
  have haddr : (oamDma page s).ppu.oamAddr = s.ppu.oamAddr := by
    rw [h.oamAddr, dmaStart_oamAddr hoff]
    exact BitVec.add_zero _
  refine ⟨fun i hi => ?_, haddr, (OamOnly.of_mem hframe).trans h.frame⟩
  have hbyte := h.bytes i hi
  rwa [dmaStart_oamAddr hoff, hframe.ram] at hbyte

end Sys2Proof.Machine
end

section
/-! Fields of words as numbers: concatenation, extraction, the scroll registers `v` and `t` (R47), the bytes that the
picture unit's status port and a controller port put together, and the palette's aliases. -/

namespace Sys2Proof.Machine

/-- Concatenation as arithmetic: the left part counts in multiples of the right part's range. -/
theorem toNat_append_eq {n m : Nat} (x : BitVec n) (y : BitVec m) : (x ++ y).toNat = 2 ^ m * x.toNat + y.toNat := by
  rw [BitVec.toNat_append, ← Nat.shiftLeft_add_eq_or_of_lt y.isLt, Nat.shiftLeft_eq, Nat.mul_comm]

/-- A field is a quotient and a remainder. -/
theorem toNat_field {n : Nat} (x : BitVec n) (start width : Nat) :
    (x.extractLsb' start width).toNat = x.toNat / 2 ^ start % 2 ^ width := by
  rw [BitVec.extractLsb'_toNat, Nat.shiftRight_eq_div_pow]

/-- A field from bit 0 on is the word cut to the field's width. -/
theorem field_zero {n : Nat} (x : BitVec n) (width : Nat) : x.extractLsb' 0 width = BitVec.ofNat width x.toNat := by
  apply BitVec.eq_of_toNat_eq
  simp

theorem coarseX_toNat (v : BitVec 15) : (coarseX v).toNat = v.toNat % 32 := by
  simp [coarseX]

theorem coarseY_toNat (v : BitVec 15) : (coarseY v).toNat = v.toNat / 32 % 32 := toNat_field v 5 5

theorem ntX_toNat (v : BitVec 15) : (ntX v).toNat = v.toNat / 1024 % 2 := toNat_field v 10 1

theorem ntY_toNat (v : BitVec 15) : (ntY v).toNat = v.toNat / 2048 % 2 := toNat_field v 11 1

theorem fineY_toNat (v : BitVec 15) : (fineY v).toNat = v.toNat / 4096 := by
  rw [fineY, toNat_field]
  have := v.isLt
  omega

theorem scrollOf_toNat (fy : BitVec 3) (ny nx : BitVec 1) (cy cx : BitVec 5) :
    (scrollOf fy ny nx cy cx).toNat = 4096 * fy.toNat + 2048 * ny.toNat + 1024 * nx.toNat + 32 * cy.toNat + cx.toNat := by
  simp only [scrollOf, toNat_append_eq]
  omega

theorem statusByte_eq (p : Ppu) : statusByte p = BitVec.ofNat 8
    (128 * p.vblank.toNat + 64 * p.spr0Hit.toNat + 32 * p.sprOverflow.toNat + p.ioLatch.toNat % 32) := by
  apply BitVec.eq_of_toNat_eq
  have hv := p.vblank.toNat_le
  have hz := p.spr0Hit.toNat_le
  have ho := p.sprOverflow.toNat_le
  simp only [statusByte, toNat_append_eq, toNat_field, BitVec.toNat_ofBool, BitVec.toNat_ofNat]
  omega

/-- A shift register shifted right with a one coming in (R105). -/
theorem shiftInOne_eq (b : Byte) : (b >>> 1) ||| 0x80 = BitVec.ofNat 8 (b.toNat / 2 + 128) :=
  congrArg Prod.fst (rorByte_eq true b)

/-- The palette's mirrors and aliases: the four cells that a backdrop cell stands for (R112). -/
theorem palIndex_of_lt {i : Nat} (h : i < 32) :
    palIndex i = if i = 16 ∨ i = 20 ∨ i = 24 ∨ i = 28 then i - 16 else i := by
  unfold palIndex
  split <;> split <;> omega

/-- The upper two bits of a byte, left in place. -/
theorem topBits_toNat (b : Byte) : (b &&& 0xC0).toNat = 2 ^ 6 * (b.toNat / 64) := by
  have h : b &&& 0xC0 = b.extractLsb' 6 2 ++ (0 : BitVec 6) := by
    apply BitVec.eq_of_getLsbD_eq
    intro i hi
    have happend := BitVec.getLsbD_append (x := b.extractLsb' 6 2) (y := (0 : BitVec 6)) (i := i)
    rw [BitVec.getLsbD_and, happend]
    interval_cases i <;> simp
  have hb := b.isLt
  have hzero : (0 : BitVec 6).toNat = 0 := rfl
  rw [h, toNat_append_eq, toNat_field, hzero]
  omega

/-- A palette read: the upper two bits of the I/O latch over the six of the cell (R110). -/
theorem latchOver_eq (latch : Byte) (c : BitVec 6) :
    (latch &&& 0xC0) ||| c.setWidth 8 = BitVec.ofNat 8 (latch.toNat / 64 * 64 + c.toNat) := by
  have hlatch := latch.isLt
  have hc := c.isLt
  apply BitVec.eq_of_toNat_eq
  rw [BitVec.toNat_or, topBits_toNat, BitVec.toNat_setWidth, Nat.mod_eq_of_lt (by omega),
    ← Nat.two_pow_add_eq_or_of_lt hc, BitVec.toNat_ofNat]
  omega

end Sys2Proof.Machine
end

section
/-! The bus, one address at a time (R84 to R92): the region of an address, and what a read gives. -/

namespace Sys2Proof.Machine

theorem regionOf_eq_picture_iff (a : Word) : regionOf a = .picture ↔ 0x2000 ≤ a.toNat ∧ a.toNat ≤ 0x3FFF := by
  unfold regionOf
  split_ifs <;> simp <;> omega

theorem regionOf_eq_cartridge_iff (a : Word) : regionOf a = .cartridge ↔ 0x4018 ≤ a.toNat := by
  unfold regionOf
  split_ifs <;> simp <;> omega

theorem busRead_of_ram (s : State) {a : Word} (h : regionOf a = .ram) :
    busRead s a = drive (Cells.read s.ram (a.toNat % 0x800)) s := by
  unfold busRead
  rw [h]
  rfl

theorem busRead_of_picture (s : State) {a : Word} (h : regionOf a = .picture) :
    busRead s a = drive (ppuRegRead s (ppuRegOf a)).1 (ppuRegRead s (ppuRegOf a)).2 := by
  unfold busRead
  rw [h]

/-- A read that no register claims is the mapper's (R84, R89). -/
theorem busRead_of_unclaimed (s : State) {a : Word} (h : 0x4000 ≤ a.toNat) (h15 : a ≠ 0x4015) (h16 : a ≠ 0x4016)
    (h17 : a ≠ 0x4017) : busRead s a = mapperRead s a := by
  unfold busRead
  split
  case h_1 hr => rw [regionOf_eq_ram_iff] at hr; omega
  case h_2 hr => rw [regionOf_eq_picture_iff] at hr; omega
  case h_3 => rw [ioRead, if_neg h15, if_neg h16, if_neg h17]
  case h_4 => rfl

theorem Pad.serialByte_eq (q : Pad) (strobe : Bool) (openBus : Byte) :
    q.serialByte strobe openBus = (openBus &&& 0xE0) ||| ((if strobe then q.buttons else q.shift) &&& 0x01) := by
  cases strobe <;> rfl

theorem Pad.afterRead_eq (q : Pad) (strobe : Bool) :
    q.afterRead strobe = { q with shift := if strobe then q.buttons else BitVec.ofNat 8 (q.shift.toNat / 2 + 128) } := by
  cases strobe
  · simp [Pad.afterRead, ← shiftInOne_eq]
  · rfl

theorem busRead_port1 (s : State) : busRead s 0x4016 =
    drive (s.pad1.serialByte s.strobe s.openBus) { s with pad1 := s.pad1.afterRead s.strobe } := rfl

theorem busRead_port2 (s : State) : busRead s 0x4017 =
    drive (s.pad2.serialByte s.strobe s.openBus) { s with pad2 := s.pad2.afterRead s.strobe } := rfl

theorem oamDataByte_eq (p : Ppu) : oamDataByte p =
    if p.oamAddr.toNat % 4 = 2 then Cells.read p.oam p.oamAddr.toNat &&& 0xE3 else Cells.read p.oam p.oamAddr.toNat := rfl

theorem dataByte_eq (s : State) : dataByte s =
    let va := BitVec.ofNat 14 s.ppu.v.toNat
    let i := va.toNat % 32
    if va.toNat ≤ 0x3EFF then s.ppu.readBuf
    else BitVec.ofNat 8 (s.ppu.ioLatch.toNat / 64 * 64 +
      (Cells.read s.ppu.palette (if i = 16 ∨ i = 20 ∨ i = 24 ∨ i = 28 then i - 16 else i)).toNat) := by
  simp only [dataByte, BitVec.ofNat_toNat]
  split
  case isTrue => rfl
  case isFalse h =>
    rw [← palIndex_of_lt (Nat.mod_lt _ (by decide)), ← latchOver_eq, ppuRead, if_neg (by omega), if_neg h]

theorem dataRefill_eq (s : State) : dataRefill s =
    let va := BitVec.ofNat 14 s.ppu.v.toNat
    if va.toNat ≤ 0x3EFF then ppuRead s va else ntRead s (va.toNat % 0x1000) := by
  simp only [dataRefill, BitVec.ofNat_toNat]

/-- Settles O44, region by region and, in the window, register by register. -/
theorem busReadResolution : Obligations.BusReadResolution := by
  unfold Obligations.BusReadResolution
  intro s a
  refine ⟨fun h => busRead_of_ram s ((regionOf_eq_ram_iff a).mpr h), fun h => ?_, ?_, ?_, ?_,
    fun ⟨h, h15, h16, h17⟩ => ?_⟩
  · have hread := busRead_of_picture s ((regionOf_eq_picture_iff a).mpr h)
    refine ⟨hread, fun hr => ?_, fun hr => ?_, fun hr => ?_, fun hr => ?_⟩
    · rw [hread]
      rcases hr with hr | hr | hr | hr | hr <;> simp [ppuRegOf, hr, ppuRegRead, drive]
    · simp [hread, ppuRegOf, hr, ppuRegRead, drive, statusByte_eq]
    · simp [hread, ppuRegOf, hr, ppuRegRead, drive, oamDataByte_eq]
    · simp [hread, ppuRegOf, hr, ppuRegRead, drive, dataByte_eq, dataRefill_eq, dataStep]
  · rintro rfl
    rfl
  · rintro rfl
    rw [busRead_port1, Pad.serialByte_eq, Pad.afterRead_eq]
    rfl
  · rintro rfl
    rw [busRead_port2, Pad.serialByte_eq, Pad.afterRead_eq]
    rfl
  · rw [busRead_of_unclaimed s h h15 h16 h17, mapperRead]
    constructor
    · intro b hb
      rw [hb]
      rfl
    · intro hnone
      rw [hnone]

end Sys2Proof.Machine
end

section
/-! The bus, one write at a time (R85): the two register windows, register by register. -/

namespace Sys2Proof.Machine

theorem writeControl_eq (p : Ppu) (v : Byte) : writeControl p v = { p with
    ctrl := v
    t := BitVec.ofNat 15 (p.t.toNat / 4096 * 4096 + 1024 * (v.toNat % 4) + p.t.toNat % 1024) } := by
  have ht : scrollOf (fineY p.t) (v.extractLsb' 1 1) (v.extractLsb' 0 1) (coarseY p.t) (coarseX p.t) =
      BitVec.ofNat 15 (p.t.toNat / 4096 * 4096 + 1024 * (v.toNat % 4) + p.t.toNat % 1024) := by
    have := p.t.isLt
    apply BitVec.eq_of_toNat_eq
    rw [scrollOf_toNat, toNat_field, toNat_field, fineY_toNat, coarseY_toNat, coarseX_toNat, BitVec.toNat_ofNat]
    omega
  rw [writeControl, ht]

theorem writeScroll_eq (p : Ppu) (v : Byte) : writeScroll p v =
    if p.w then { p with
      t := BitVec.ofNat 15
        (4096 * (v.toNat % 8) + p.t.toNat / 1024 % 4 * 1024 + 32 * (v.toNat / 8) + p.t.toNat % 32), w := false }
    else { p with
      t := BitVec.ofNat 15 (p.t.toNat / 32 * 32 + v.toNat / 8), fineX := BitVec.ofNat 3 v.toNat, w := true } := by
  have hv := v.isLt
  have ht := p.t.isLt
  have hfine : (v.extractLsb' 0 3).toNat = v.toNat % 8 := by simp
  have hcoarse : (v.extractLsb' 3 5).toNat = v.toNat / 8 := by rw [toNat_field]; omega
  have hselect : 2048 * (p.t.toNat / 2048 % 2) + 1024 * (p.t.toNat / 1024 % 2) = p.t.toNat / 1024 % 4 * 1024 := by omega
  have hsecond : scrollOf (v.extractLsb' 0 3) (ntY p.t) (ntX p.t) (v.extractLsb' 3 5) (coarseX p.t) = BitVec.ofNat 15
      (4096 * (v.toNat % 8) + p.t.toNat / 1024 % 4 * 1024 + 32 * (v.toNat / 8) + p.t.toNat % 32) := by
    apply BitVec.eq_of_toNat_eq
    rw [scrollOf_toNat, hfine, hcoarse, ntY_toNat, ntX_toNat, coarseX_toNat, BitVec.toNat_ofNat]
    omega
  have hfirst : scrollOf (fineY p.t) (ntY p.t) (ntX p.t) (coarseY p.t) (v.extractLsb' 3 5) =
      BitVec.ofNat 15 (p.t.toNat / 32 * 32 + v.toNat / 8) := by
    apply BitVec.eq_of_toNat_eq
    rw [scrollOf_toNat, hcoarse, fineY_toNat, ntY_toNat, ntX_toNat, coarseY_toNat, BitVec.toNat_ofNat]
    omega
  rw [writeScroll, hsecond, hfirst, field_zero]

theorem writeAddress_eq (p : Ppu) (v : Byte) : writeAddress p v =
    if p.w then { p with
      t := BitVec.ofNat 15 (p.t.toNat / 256 * 256 + v.toNat), v := BitVec.ofNat 15 (p.t.toNat / 256 * 256 + v.toNat)
      w := false }
    else { p with t := BitVec.ofNat 15 (256 * (v.toNat % 64) + p.t.toNat % 256), w := true } := by
  have hv := v.isLt
  have ht := p.t.isLt
  have hlow : (p.t.extractLsb' 8 7 ++ v : BitVec 15) = BitVec.ofNat 15 (p.t.toNat / 256 * 256 + v.toNat) := by
    apply BitVec.eq_of_toNat_eq
    rw [toNat_append_eq, toNat_field, BitVec.toNat_ofNat]
    omega
  have hhigh : ((0 : BitVec 1) ++ v.extractLsb' 0 6 ++ p.t.extractLsb' 0 8 : BitVec 15) =
      BitVec.ofNat 15 (256 * (v.toNat % 64) + p.t.toNat % 256) := by
    have hzero : (0 : BitVec 1).toNat = 0 := rfl
    apply BitVec.eq_of_toNat_eq
    rw [toNat_append_eq, toNat_append_eq, toNat_field, toNat_field, hzero, BitVec.toNat_ofNat]
    omega
  rw [writeAddress, hlow, hhigh]

theorem periodLow_eq (period : BitVec 11) (v : Byte) :
    periodLow period v = BitVec.ofNat 11 (period.toNat / 256 * 256 + v.toNat) := by
  have hv := v.isLt
  have hp := period.isLt
  apply BitVec.eq_of_toNat_eq
  rw [periodLow, toNat_append_eq, toNat_field, BitVec.toNat_ofNat]
  omega

theorem periodHigh_eq (period : BitVec 11) (v : Byte) :
    periodHigh period v = BitVec.ofNat 11 (256 * (v.toNat % 8) + period.toNat % 256) := by
  apply BitVec.eq_of_toNat_eq
  rw [periodHigh, toNat_append_eq, toNat_field, toNat_field, BitVec.toNat_ofNat]
  omega

/-- A field of a byte, cut from a quotient. -/
theorem field_eq (start width : Nat) (v : Byte) :
    v.extractLsb' start width = BitVec.ofNat width (v.toNat / 2 ^ start) := by
  apply BitVec.eq_of_toNat_eq
  rw [toNat_field, BitVec.toNat_ofNat]

theorem loadedLength_eq (enabled : Bool) (length v : Byte) : loadedLength enabled length v =
    if enabled then lengthEntry (BitVec.ofNat 5 (v.toNat / 8)) else length := by
  rw [loadedLength, field_eq]
  rfl

theorem busWrite_of_picture (s : State) {a : Word} (v : Byte) (h : regionOf a = .picture) :
    busWrite s a v = ppuRegWrite { s with openBus := v } (ppuRegOf a) v := by
  unfold busWrite
  rw [h]

theorem busWrite_of_io (s : State) {a : Word} (v : Byte) (h : regionOf a = .io) :
    busWrite s a v = ioWrite { s with openBus := v } a v := by
  unfold busWrite
  rw [h]

theorem busWrite_of_cartridge (s : State) {a : Word} (v : Byte) (h : regionOf a = .cartridge) :
    busWrite s a v = { s with openBus := v, cart := cpuWrite s.cart s.chip a v } := by
  unfold busWrite
  rw [h]

/-- A write of the picture unit's address space changes four memories and nothing else (R110). -/
theorem ppuWrite_eq (s : State) (a : BitVec 14) (v : Byte) : ∃ vram palette chr ntExtra, ppuWrite s a v =
    { s with
      ppu := { s.ppu with vram := vram, palette := palette }, cart := { s.cart with chr := chr, ntExtra := ntExtra } } := by
  unfold ppuWrite
  dsimp only
  split
  · unfold ppuChrWrite
    split
    · exact ⟨_, _, _, _, rfl⟩
    · split <;> exact ⟨_, _, _, _, rfl⟩
  · split
    · unfold ntWrite
      dsimp only
      split <;> exact ⟨_, _, _, _, rfl⟩
    · exact ⟨_, _, _, _, rfl⟩

theorem writeData_eq (s : State) (v : Byte) : writeData s v =
    { ppuWrite s (s.ppu.v.setWidth 14) v with
      ppu := { (ppuWrite s (s.ppu.v.setWidth 14) v).ppu with v := s.ppu.v + dataStep s.ppu } } := by
  obtain ⟨_, _, _, _, h⟩ := ppuWrite_eq s (s.ppu.v.setWidth 14) v
  simp only [writeData, h]
  rfl

theorem ppuRegWrite_ioLatch (s : State) (r : PpuReg) (v : Byte) : (ppuRegWrite s r v).ppu.ioLatch = v := by
  cases r
  case data =>
    obtain ⟨_, _, _, _, h⟩ := ppuWrite_eq { s with ppu := { s.ppu with ioLatch := v } } (s.ppu.v.setWidth 14) v
    simp only [ppuRegWrite, ppuRegStore, writeData, h]
  case scroll => simp only [ppuRegWrite, ppuRegStore, writeScroll]; split <;> rfl
  case address => simp only [ppuRegWrite, ppuRegStore, writeAddress]; split <;> rfl
  all_goals rfl

theorem ppuRegWrite_openBus (s : State) (r : PpuReg) (v : Byte) : (ppuRegWrite s r v).openBus = s.openBus := by
  cases r
  case data =>
    obtain ⟨_, _, _, _, h⟩ := ppuWrite_eq { s with ppu := { s.ppu with ioLatch := v } } (s.ppu.v.setWidth 14) v
    simp only [ppuRegWrite, ppuRegStore, writeData, h]
  all_goals rfl

theorem ioWrite_openBus (s : State) (a : Word) (v : Byte) : (ioWrite s a v).openBus = s.openBus := by
  unfold ioWrite
  split_ifs <;> rfl

/-- Every write drives the bus, claimed or not (R85, R92). -/
theorem busWrite_openBus (s : State) (a : Word) (v : Byte) : (busWrite s a v).openBus = v := by
  unfold busWrite
  cases regionOf a with
  | ram => rfl
  | picture => exact ppuRegWrite_openBus _ _ _
  | io => exact ioWrite_openBus _ _ _
  | cartridge => rfl

/-- The channel registers: offsets 0 to 0x13 of the I/O window (R552). -/
theorem busWrite_channel (s : State) {a : Word} (v : Byte) (h : 0x4000 ≤ a.toNat) (h' : a.toNat < 0x4014) :
    busWrite s a v = { s with openBus := v, apu := s.apu.channelWrite (a.toNat % 0x20) v } := by
  rw [busWrite_of_io s v ((regionOf_eq_io_iff a).mpr ⟨h, by omega⟩), ioWrite, if_pos h']

theorem Pulse.write_eq (q : Pulse) (r : Nat) (v : Byte) : q.write r v =
    match r with
    | 0 => { q with
      duty := BitVec.ofNat 2 (v.toNat / 64), halt := v.getLsbD 5, constVol := v.getLsbD 4, vol := BitVec.ofNat 4 v.toNat }
    | 1 => { q with
      swEn := v.getLsbD 7, swPeriod := BitVec.ofNat 3 (v.toNat / 16), swNeg := v.getLsbD 3
      swShift := BitVec.ofNat 3 v.toNat, swReload := true }
    | 2 => { q with period := BitVec.ofNat 11 (q.period.toNat / 256 * 256 + v.toNat) }
    | _ => { q with
      period := BitVec.ofNat 11 (256 * (v.toNat % 8) + q.period.toNat % 256)
      length := if q.enabled then lengthEntry (BitVec.ofNat 5 (v.toNat / 8)) else q.length
      envStart := true, seq := 0 } := by
  simp only [Pulse.write, periodLow_eq, periodHigh_eq, loadedLength_eq, field_zero, field_eq 6 2, field_eq 4 3] <;> rfl

theorem Triangle.write_eq (q : Triangle) (r : Nat) (v : Byte) : q.write r v =
    match r with
    | 0 => { q with ctrl := v.getLsbD 7, linReloadVal := BitVec.ofNat 7 v.toNat }
    | 1 => q
    | 2 => { q with period := BitVec.ofNat 11 (q.period.toNat / 256 * 256 + v.toNat) }
    | _ => { q with
      period := BitVec.ofNat 11 (256 * (v.toNat % 8) + q.period.toNat % 256)
      length := if q.enabled then lengthEntry (BitVec.ofNat 5 (v.toNat / 8)) else q.length, linReload := true } := by
  simp only [Triangle.write, periodLow_eq, periodHigh_eq, loadedLength_eq, field_zero] <;> rfl

theorem Noise.write_eq (q : Noise) (r : Nat) (v : Byte) : q.write r v =
    match r with
    | 0 => { q with halt := v.getLsbD 5, constVol := v.getLsbD 4, vol := BitVec.ofNat 4 v.toNat }
    | 1 => q
    | 2 => { q with mode := v.getLsbD 7, periodIdx := BitVec.ofNat 4 v.toNat }
    | _ => { q with
      length := if q.enabled then lengthEntry (BitVec.ofNat 5 (v.toNat / 8)) else q.length, envStart := true } := by
  simp only [Noise.write, loadedLength_eq, field_zero] <;> rfl

theorem Dmc.write_eq (q : Dmc) (r : Nat) (v : Byte) : q.write r v =
    match r with
    | 0 => { q with
      irqEn := v.getLsbD 7, loop := v.getLsbD 6, rateIdx := BitVec.ofNat 4 v.toNat
      irqFlag := q.irqFlag && v.getLsbD 7 }
    | 1 => { q with level := BitVec.ofNat 7 v.toNat }
    | 2 => { q with addrReg := v }
    | _ => { q with lenReg := v } := by
  simp only [Dmc.write, field_zero] <;> rfl

/-- The strobe's write, with the shift registers of a high strobe at the buttons (R104). -/
theorem busWrite_strobe (s : State) (v : Byte) : busWrite s 0x4016 v =
    { s with
      openBus := v, strobe := v.getLsbD 0, pad1 := s.pad1.strobed (s.strobe || v.getLsbD 0)
      pad2 := s.pad2.strobed (s.strobe || v.getLsbD 0) } := rfl

/-- What a write of RAM shows: the byte at every mirror of its address (R86). -/
theorem peek_busWrite_of_ram {s : State} (hs : s.Inv) {a b : Word} (v : Byte) (ha : a.toNat ≤ 0x1FFF)
    (hb : b.toNat ≤ 0x1FFF) :
    peek (busWrite s a v) b = if b.toNat % 0x800 = a.toNat % 0x800 then v else peek s b := by
  have hra := (regionOf_eq_ram_iff a).mpr ha
  have hrb := (regionOf_eq_ram_iff b).mpr hb
  rw [peek_of_ram _ hrb, peek_of_ram _ hrb, busWrite_of_ram s v hra]
  exact Cells.read_write hs.ram.1 _ _ _

/-- Settles O45, region by region and, in the two windows, register by register. -/
theorem busWriteResolution : Obligations.BusWriteResolution := by
  unfold Obligations.BusWriteResolution
  intro s a v
  refine ⟨busWrite_openBus s a v, fun h => ?_, fun h => ?_, fun ⟨h, h'⟩ => ?_, fun h => ?_⟩
  · exact ⟨busWrite_of_ram s v ((regionOf_eq_ram_iff a).mpr h), fun b hs hb => peek_busWrite_of_ram hs v h hb⟩
  · have hw := busWrite_of_picture s v ((regionOf_eq_picture_iff a).mpr h)
    have hframe := pictureWrite_ppuRegWrite { s with openBus := v } (ppuRegOf a) v
    refine ⟨hw, ?_, ?_, ?_, ?_, fun hr => ?_, fun hr => ?_, fun hr => ?_, fun hr => ?_, fun hr => ?_, fun hr => ?_,
      fun hr => ?_, fun hr => ?_⟩
    · rw [hw, ppuRegWrite_ioLatch]
    · rw [hw, hframe.ram]
    · rw [hw, ppuRegWrite_cpu]
    · rw [hw, hframe.apu]
    · simp only [hw, ppuRegOf, hr, ppuRegWrite, ppuRegStore, writeControl_eq]
    · simp only [hw, ppuRegOf, hr, ppuRegWrite, ppuRegStore]
    · simp only [hw, ppuRegOf, hr, ppuRegWrite, ppuRegStore]
    · simp only [hw, ppuRegOf, hr, ppuRegWrite, ppuRegStore]
    · simp only [hw, ppuRegOf, hr, ppuRegWrite, ppuRegStore, writeOamData]
    · simp only [hw, ppuRegOf, hr, ppuRegWrite, ppuRegStore, writeScroll_eq]
    · simp only [hw, ppuRegOf, hr, ppuRegWrite, ppuRegStore, writeAddress_eq]
    · simp only [hw, ppuRegOf, hr, ppuRegWrite, ppuRegStore, writeData_eq, dataStep, BitVec.ofNat_toNat]
  · have hmod : a.toNat % 0x20 % 4 = a.toNat % 4 := Nat.mod_mod_of_dvd _ (by decide)
    refine ⟨fun hc => ?_, fun hc => ?_, fun hc => ?_, fun hc => ?_, fun hc => ?_, ?_, ?_, ?_, ?_⟩
    · have hdiv : a.toNat % 0x20 / 4 = 0 := by omega
      simp only [busWrite_channel s v h (by omega), Apu.channelWrite, hdiv, hmod, Pulse.write_eq] <;> rfl
    · have hdiv : a.toNat % 0x20 / 4 = 1 := by omega
      simp only [busWrite_channel s v h (by omega), Apu.channelWrite, hdiv, hmod, Pulse.write_eq] <;> rfl
    · have hdiv : a.toNat % 0x20 / 4 = 2 := by omega
      simp only [busWrite_channel s v h (by omega), Apu.channelWrite, hdiv, hmod, Triangle.write_eq] <;> rfl
    · have hdiv : a.toNat % 0x20 / 4 = 3 := by omega
      simp only [busWrite_channel s v h (by omega), Apu.channelWrite, hdiv, hmod, Noise.write_eq] <;> rfl
    · have hdiv : a.toNat % 0x20 / 4 = 4 := by omega
      simp only [busWrite_channel s v h (by omega), Apu.channelWrite, hdiv, hmod, Dmc.write_eq] <;> rfl
    all_goals
      rintro rfl
      rfl
  · exact busWrite_of_cartridge s v ((regionOf_eq_cartridge_iff a).mpr h)

end Sys2Proof.Machine
end

section
/-! The controller ports (R104 to R106): what a shift register holds after any number of reads. -/

namespace Sys2Proof.Machine

theorem Pad.buttons_iterate_afterRead (q : Pad) (strobe : Bool) (n : Nat) :
    ((fun p : Pad => p.afterRead strobe)^[n] q).buttons = q.buttons := by
  induction n with
  | zero => rfl
  | succ n ih => rw [Function.iterate_succ_apply', Pad.buttons_afterRead, ih]

/-- After `n` reads bit `i` of the shift register is the bit `n` places up, or one of the ones shifted in. -/
theorem Pad.shift_iterate_afterRead (q : Pad) (n : Nat) {i : Nat} (hi : i < 8) :
    ((fun p : Pad => p.afterRead false)^[n] q).shift.getLsbD i = if i + n < 8 then q.shift.getLsbD (i + n) else true := by
  induction n generalizing i with
  | zero => simp [hi]
  | succ n ih =>
    have hbit : ∀ p : Pad, (p.afterRead false).shift.getLsbD i = if i = 7 then true else p.shift.getLsbD (i + 1) := by
      intro p
      simp only [Pad.afterRead, Bool.false_eq_true, if_false, BitVec.getLsbD_or, BitVec.getLsbD_ushiftRight]
      interval_cases i <;> simp
    rw [Function.iterate_succ_apply', hbit]
    by_cases h7 : i = 7
    · rw [if_pos h7, if_neg (by omega)]
    · rw [if_neg h7, ih (by omega), Nat.add_right_comm, Nat.add_assoc]

/-- The serial bit is that of the register shown: the buttons while the strobe is high (R105). -/
theorem Pad.serialByte_bit (q : Pad) (strobe : Bool) (openBus : Byte) :
    (q.serialByte strobe openBus).getLsbD 0 = (if strobe then q.buttons else q.shift).getLsbD 0 := by
  simp [Pad.serialByte_eq]

/-- Beside its serial bit a port read shows the open bus in bits 7 to 5 and zeros in bits 4 to 1 (R105). -/
theorem Pad.serialByte_rest (q : Pad) (strobe : Bool) (openBus : Byte) :
    q.serialByte strobe openBus &&& 0xFE = openBus &&& 0xE0 := by
  rw [Pad.serialByte_eq]
  apply BitVec.eq_of_getLsbD_eq
  intro i hi
  simp only [BitVec.getLsbD_and, BitVec.getLsbD_or]
  interval_cases i <;> simp

theorem iterate_port1 (u : State) (n : Nat) :
    ((fun w => (busRead w 0x4016).2)^[n] u).pad1 = (fun p : Pad => p.afterRead u.strobe)^[n] u.pad1 ∧
    ((fun w => (busRead w 0x4016).2)^[n] u).strobe = u.strobe := by
  induction n with
  | zero => exact ⟨rfl, rfl⟩
  | succ n ih =>
    obtain ⟨hpad, hstrobe⟩ := ih
    rw [Function.iterate_succ_apply', Function.iterate_succ_apply', busRead_port1, ← hpad]
    exact ⟨congrArg (Pad.afterRead _) hstrobe, hstrobe⟩

theorem iterate_port2 (u : State) (n : Nat) :
    ((fun w => (busRead w 0x4017).2)^[n] u).pad2 = (fun p : Pad => p.afterRead u.strobe)^[n] u.pad2 ∧
    ((fun w => (busRead w 0x4017).2)^[n] u).strobe = u.strobe := by
  induction n with
  | zero => exact ⟨rfl, rfl⟩
  | succ n ih =>
    obtain ⟨hpad, hstrobe⟩ := ih
    rw [Function.iterate_succ_apply', Function.iterate_succ_apply', busRead_port2, ← hpad]
    exact ⟨congrArg (Pad.afterRead _) hstrobe, hstrobe⟩

/-- The bit of the `n`-th read of port 1, from the strobe and the port before the reads. -/
theorem iterate_port1_bit (u : State) (n : Nat) :
    (busRead ((fun w => (busRead w 0x4016).2)^[n] u) 0x4016).1.getLsbD 0 =
      if u.strobe then u.pad1.buttons.getLsbD 0 else if n < 8 then u.pad1.shift.getLsbD n else true := by
  obtain ⟨hpad, hstrobe⟩ := iterate_port1 u n
  rw [busRead_port1, drive, Pad.serialByte_bit, hpad, hstrobe]
  cases u.strobe
  · simpa using u.pad1.shift_iterate_afterRead n (i := 0) (by decide)
  · simp [Pad.buttons_iterate_afterRead]

/-- The bit of the `n`-th read of port 2. -/
theorem iterate_port2_bit (u : State) (n : Nat) :
    (busRead ((fun w => (busRead w 0x4017).2)^[n] u) 0x4017).1.getLsbD 0 =
      if u.strobe then u.pad2.buttons.getLsbD 0 else if n < 8 then u.pad2.shift.getLsbD n else true := by
  obtain ⟨hpad, hstrobe⟩ := iterate_port2 u n
  rw [busRead_port2, drive, Pad.serialByte_bit, hpad, hstrobe]
  cases u.strobe
  · simpa using u.pad2.shift_iterate_afterRead n (i := 0) (by decide)
  · simp [Pad.buttons_iterate_afterRead]

/-- Settles O46: the write that ends the strobe leaves both shift registers at the buttons of that moment. -/
theorem controllersReportTheButtons : Obligations.ControllersReportTheButtons := by
  unfold Obligations.ControllersReportTheButtons
  intro s n b1 b2
  refine ⟨?_, ?_, Pad.serialByte_rest _ _ _, Pad.serialByte_rest _ _ _, ?_, ?_⟩
  · exact iterate_port1_bit _ n
  · exact iterate_port2_bit _ n
  · exact iterate_port1_bit _ n
  · exact iterate_port2_bit _ n

end Sys2Proof.Machine
end

section
/-! The picture unit's address space and its ports: name tables (R111), palette (R112), the two-write ports (R464, R465)
and the data port (R466, R467). -/

namespace Sys2Proof.Machine

/-- The mirroring of name tables, one page number for each table (R111). -/
theorem ntPage_eq (m : Mirroring) {tbl : Nat} (h : tbl < 4) : ntPage m tbl =
    match m with
    | .horizontal => if tbl < 2 then 0 else 1
    | .vertical => if tbl = 1 ∨ tbl = 3 then 1 else 0
    | .oneScreenLower => 0
    | .oneScreenUpper => 1
    | .fourScreen => tbl := by
  cases m <;> simp only [ntPage] <;> split_ifs <;> omega

/-- A write shows where the page and the offset in the table are the same (R111): the memory behind pages 0 and 1 is
apart from that behind pages 2 and 3. -/
theorem ntRead_ntWrite {s : State} (hvram : Cells.wf (width := 8) s.ppu.vram)
    (hextra : Cells.wf (width := 8) s.cart.ntExtra) (off off' : Nat) (v : Byte) :
    ntRead (ntWrite s off v) off' =
      if ntPage (mirroring s.cart) (off / 0x400) = ntPage (mirroring s.cart) (off' / 0x400) ∧ off % 0x400 = off' % 0x400
      then v else ntRead s off' := by
  unfold ntWrite
  generalize hp : ntPage (mirroring s.cart) (off / 0x400) = p
  generalize hq : ntPage (mirroring s.cart) (off' / 0x400) = q
  have hcart : ∀ m : Memory, mirroring { s.cart with ntExtra := m } = mirroring s.cart := fun _ => rfl
  by_cases hp2 : p < 2 <;> by_cases hq2 : q < 2
  · simp only [hp2, if_true, ntRead, hq, hq2, Cells.read_write hvram]
    exact if_congr (by omega) rfl rfl
  · simp only [hp2, if_true, ntRead, hq, hq2, if_false]
    rw [if_neg (by omega)]
  · simp only [hp2, if_false, ntRead, hcart, hq, hq2, if_true]
    rw [if_neg (by omega)]
  · simp only [hp2, if_false, ntRead, hcart, hq, hq2, Cells.read_write hextra]
    exact if_congr (by omega) rfl rfl

/-- Settles O47. -/
theorem nameTableMirroring : Obligations.NameTableMirroring := by
  unfold Obligations.NameTableMirroring
  intro s off off' v hs ho ho'
  have hp := ntPage_eq (mirroring s.cart) (tbl := off / 0x400) (by omega)
  have hq := ntPage_eq (mirroring s.cart) (tbl := off' / 0x400) (by omega)
  rw [ntRead_ntWrite hs.memories.vram.1 hs.storage.ntExtra.1, hp, hq] <;> rfl

theorem ppuRead_of_palette (s : State) {b : BitVec 14} (h : 0x3F00 ≤ b.toNat) : ppuRead s b =
    (s.ppu.ioLatch &&& 0xC0) ||| (Cells.read s.ppu.palette (palIndex (b.toNat % 0x20))).setWidth 8 := by
  rw [ppuRead, if_neg (by omega), if_neg (by omega)]

theorem ppuWrite_of_palette (s : State) {a : BitVec 14} (v : Byte) (h : 0x3F00 ≤ a.toNat) : ppuWrite s a v =
    { s with ppu := { s.ppu with
      palette := Cells.write s.ppu.palette (palIndex (a.toNat % 0x20)) (v.setWidth 6) } } := by
  rw [ppuWrite, if_neg (by omega), if_neg (by omega)]

/-- A palette cell keeps the lower six bits of a byte. -/
theorem sixBits_eq (v : Byte) : (v.setWidth 6).setWidth 8 = v &&& 0x3F := by
  apply BitVec.eq_of_getLsbD_eq
  intro i hi
  simp only [BitVec.getLsbD_and, BitVec.getLsbD_setWidth]
  interval_cases i <;> simp

/-- Settles O48. -/
theorem paletteMirroring : Obligations.PaletteMirroring := by
  unfold Obligations.PaletteMirroring
  intro s a b v hs ha hb
  simp only [← palIndex_of_lt (Nat.mod_lt _ (by decide : 0 < 32))]
  rw [ppuWrite_of_palette s v ha, ppuRead_of_palette _ hb, ppuRead_of_palette s hb]
  simp only [Cells.read_write hs.memories.palette.1, eq_comm (a := palIndex (b.toNat % 32))]
  split
  · rw [sixBits_eq]
  · rfl

theorem busRead_status (s : State) {a : Word} (h : 0x2000 ≤ a.toNat) (h' : a.toNat ≤ 0x3FFF) (hr : a.toNat % 8 = 2) :
    busRead s a = (statusByte s.ppu, { s with
      openBus := statusByte s.ppu
      ppu := { s.ppu with vblank := false, w := false, ioLatch := statusByte s.ppu } }) := by
  simp only [busRead_of_picture s ((regionOf_eq_picture_iff a).mpr ⟨h, h'⟩), ppuRegOf, hr, ppuRegRead, drive]

theorem busRead_data (s : State) : busRead s 0x2007 = (dataByte s, { s with
    openBus := dataByte s
    ppu := { s.ppu with readBuf := dataRefill s, v := s.ppu.v + dataStep s.ppu, ioLatch := dataByte s } }) := rfl

theorem busWrite_scroll (s : State) {a : Word} (v : Byte) (h : 0x2000 ≤ a.toNat) (h' : a.toNat ≤ 0x3FFF)
    (hr : a.toNat % 8 = 5) :
    busWrite s a v = { s with openBus := v, ppu := writeScroll { s.ppu with ioLatch := v } v } := by
  simp only [busWrite_of_picture s v ((regionOf_eq_picture_iff a).mpr ⟨h, h'⟩), ppuRegOf, hr, ppuRegWrite, ppuRegStore]

theorem busWrite_address (s : State) {a : Word} (v : Byte) (h : 0x2000 ≤ a.toNat) (h' : a.toNat ≤ 0x3FFF)
    (hr : a.toNat % 8 = 6) :
    busWrite s a v = { s with openBus := v, ppu := writeAddress { s.ppu with ioLatch := v } v } := by
  simp only [busWrite_of_picture s v ((regionOf_eq_picture_iff a).mpr ⟨h, h'⟩), ppuRegOf, hr, ppuRegWrite, ppuRegStore]

/-- The status byte is below 256, so its number is the sum of its bits. -/
theorem statusByte_toNat (p : Ppu) : (statusByte p).toNat =
    128 * p.vblank.toNat + 64 * p.spr0Hit.toNat + 32 * p.sprOverflow.toNat + p.ioLatch.toNat % 32 := by
  have hv := p.vblank.toNat_le
  have hz := p.spr0Hit.toNat_le
  have ho := p.sprOverflow.toNat_le
  rw [statusByte_eq, BitVec.toNat_ofNat]
  omega

/-- Settles O49: the first write of a pair raises the toggle that the second one meets. -/
theorem scrollAndAddressPorts : Obligations.ScrollAndAddressPorts := by
  unfold Obligations.ScrollAndAddressPorts
  refine ⟨fun s a h h' hr => ?_, fun s a b hi lo h h' hr k k' kr hw => ?_, fun s a b x y h h' hr k k' kr hw => ?_⟩
  · rw [busRead_status s h h' hr]
    exact ⟨statusByte_toNat s.ppu, rfl⟩
  · have hlo := lo.isLt
    simp only [busWrite_address s hi h h' hr, busWrite_address _ lo k k' kr, writeAddress_eq, hw, Bool.false_eq_true,
      if_false, if_true, BitVec.toNat_ofNat, and_self, and_true]
    omega
  · have hx := x.isLt
    have hy := y.isLt
    have ht := s.ppu.t.isLt
    have hfirst : (s.ppu.t.toNat / 32 * 32 + x.toNat / 8) % 2 ^ 15 = s.ppu.t.toNat / 32 * 32 + x.toNat / 8 := by omega
    have htable : (s.ppu.t.toNat / 32 * 32 + x.toNat / 8) / 1024 = s.ppu.t.toNat / 1024 := by omega
    have hcolumn : (s.ppu.t.toNat / 32 * 32 + x.toNat / 8) % 32 = x.toNat / 8 := by omega
    simp only [busWrite_scroll s x h h' hr, busWrite_scroll _ y k k' kr, writeScroll_eq, hw, Bool.false_eq_true,
      if_false, if_true, BitVec.toNat_ofNat, and_true, hfirst, htable, hcolumn]
    omega

theorem ppuRead_of_nameTable (s : State) {a : BitVec 14} (h : 0x2000 ≤ a.toNat) (h' : a.toNat ≤ 0x3EFF) :
    ppuRead s a = ntRead s (a.toNat % 0x1000) := by
  rw [ppuRead, if_neg (by omega), if_pos h']

theorem ppuWrite_of_nameTable (s : State) {a : BitVec 14} (v : Byte) (h : 0x2000 ≤ a.toNat) (h' : a.toNat ≤ 0x3EFF) :
    ppuWrite s a v = ntWrite s (a.toNat % 0x1000) v := by
  rw [ppuWrite, if_neg (by omega), if_pos h']

/-- A name-table read is a function of the mapper and the name-table memory. -/
theorem ntRead_congr {s t : State} (off : Nat) (hc : t.cart = s.cart) (hv : t.ppu.vram = s.ppu.vram) :
    ntRead t off = ntRead s off := by
  simp only [ntRead, hc, hv]

/-- What a write of the data port does at a name-table address (R467). -/
theorem busWrite_data_of_nameTable (s : State) (b : Byte) (h : 0x2000 ≤ s.ppu.v.toNat) (h' : s.ppu.v.toNat ≤ 0x3EFF) :
    (∀ off, ntRead (busWrite s 0x2007 b) off = ntRead (ntWrite s (s.ppu.v.toNat % 0x1000) b) off) ∧
    (busWrite s 0x2007 b).ppu.readBuf = s.ppu.readBuf ∧ (busWrite s 0x2007 b).ppu.ctrl = s.ppu.ctrl ∧
    (busWrite s 0x2007 b).ppu.v = s.ppu.v + dataStep s.ppu := by
  have hcut : (s.ppu.v.setWidth 14).toNat = s.ppu.v.toNat := by
    rw [BitVec.toNat_setWidth]
    omega
  have hw : busWrite s 0x2007 b = writeData { s with openBus := b, ppu := { s.ppu with ioLatch := b } } b := rfl
  rw [hw, writeData_eq, ppuWrite_of_nameTable _ b (by rw [hcut]; exact h) (by rw [hcut]; exact h'), hcut]
  unfold ntWrite
  dsimp only
  split <;> exact ⟨fun _ => ntRead_congr _ rfl rfl, rfl, rfl, rfl⟩

/-- What a read of the data port gives and leaves at a name-table address (R466). -/
theorem busRead_data_of_nameTable (s : State) (h : 0x2000 ≤ s.ppu.v.toNat) (h' : s.ppu.v.toNat ≤ 0x3EFF) :
    (busRead s 0x2007).1 = s.ppu.readBuf ∧
    (busRead s 0x2007).2.ppu.readBuf = ntRead s (s.ppu.v.toNat % 0x1000) ∧
    (busRead s 0x2007).2.ppu.v = s.ppu.v + dataStep s.ppu := by
  have hcut : (BitVec.ofNat 14 s.ppu.v.toNat).toNat = s.ppu.v.toNat := by
    rw [BitVec.toNat_ofNat]
    omega
  rw [busRead_data, dataByte_eq, dataRefill_eq]
  simp only [hcut, h', if_true, ppuRead_of_nameTable s (hcut.symm ▸ h) (hcut.symm ▸ h'), and_self]

/-- Settles O50: the first read loads the buffer with the byte that the write left, and the second read gives it. -/
theorem dataPortReadsBackAfterOneRead : Obligations.DataPortReadsBackAfterOneRead := by
  unfold Obligations.DataPortReadsBackAfterOneRead
  intro s addr b hs h h' at' s1 r1 r2
  obtain ⟨hstored, hbuffer, hctrl, hv⟩ := busWrite_data_of_nameTable (at' s) b h h'
  obtain ⟨hfirst, hrefill, hstep⟩ := busRead_data_of_nameTable (at' s1) h h'
  obtain ⟨hsecond, -, -⟩ := busRead_data_of_nameTable (at' r1.2) h h'
  refine ⟨hfirst.trans hbuffer, ?_, hv, ?_⟩
  · calc r2.1 = ntRead (at' s1) (addr.toNat % 0x1000) := hsecond.trans hrefill
      _ = ntRead s1 (addr.toNat % 0x1000) := ntRead_congr _ rfl rfl
      _ = ntRead (ntWrite (at' s) (addr.toNat % 0x1000) b) (addr.toNat % 0x1000) := hstored _
      _ = b := by
        rw [ntRead_ntWrite (s := at' s) hs.memories.vram.1 hs.storage.ntExtra.1]
        exact if_pos ⟨rfl, rfl⟩
  · have hctrl' : s1.ppu.ctrl = s.ppu.ctrl := hctrl
    have hstep' : r1.2.ppu.v = addr + if s1.ppu.ctrl.getLsbD 2 then 32 else 1 := hstep
    rw [hstep', hctrl']

end Sys2Proof.Machine
end

section
/-! The scroll updates of rendering (R457), on the fields of `v`: a field that counts up and carries into the next table
comes back to its own value, after as many steps as it has values, with the table exchanged. -/

namespace Sys2Proof.Machine

/-- A counter on the places `0 .. n` of one table, which goes on from its last place to the first of the next table,
reaches the same place of that table after `n + 1` steps. -/
theorem iterate_throughTable {α : Type} {f : α → α} {x y : Nat → α} {n : Nat} (hx : ∀ i < n, f (x i) = x (i + 1))
    (hlast : f (x n) = y 0) (hy : ∀ i < n, f (y i) = y (i + 1)) {i : Nat} (hi : i ≤ n) : f^[n + 1] (x i) = y i := by
  have along : ∀ z : Nat → α, (∀ i < n, f (z i) = z (i + 1)) → ∀ k i, i + k ≤ n → f^[k] (z i) = z (i + k) := by
    intro z hz k
    induction k with
    | zero => intro i _; rfl
    | succ k ih =>
      intro i hk
      rw [Function.iterate_succ_apply', ih i (by omega), hz _ (by omega), Nat.add_assoc]
  have hsplit : n + 1 = i + (1 + (n - i)) := by omega
  rw [hsplit, Function.iterate_add_apply, Function.iterate_add_apply, along x hx (n - i) i (by omega),
    Nat.add_sub_cancel' hi, Function.iterate_one, hlast, along y hy i 0 (by omega), Nat.zero_add]

section
variable (fy : BitVec 3) (ny nx : BitVec 1) (cy cx : BitVec 5)

theorem fineY_scrollOf : fineY (scrollOf fy ny nx cy cx) = fy := by
  apply BitVec.eq_of_toNat_eq
  rw [fineY_toNat, scrollOf_toNat]
  omega

theorem ntY_scrollOf : ntY (scrollOf fy ny nx cy cx) = ny := by
  apply BitVec.eq_of_toNat_eq
  rw [ntY_toNat, scrollOf_toNat]
  omega

theorem ntX_scrollOf : ntX (scrollOf fy ny nx cy cx) = nx := by
  apply BitVec.eq_of_toNat_eq
  rw [ntX_toNat, scrollOf_toNat]
  omega

theorem coarseY_scrollOf : coarseY (scrollOf fy ny nx cy cx) = cy := by
  apply BitVec.eq_of_toNat_eq
  rw [coarseY_toNat, scrollOf_toNat]
  omega

theorem coarseX_scrollOf : coarseX (scrollOf fy ny nx cy cx) = cx := by
  apply BitVec.eq_of_toNat_eq
  rw [coarseX_toNat, scrollOf_toNat]
  omega

theorem incX_scrollOf : incX (scrollOf fy ny nx cy cx) =
    if cx = 31 then scrollOf fy ny (~~~nx) cy 0 else scrollOf fy ny nx cy (cx + 1) := by
  simp only [incX, fineY_scrollOf, ntY_scrollOf, ntX_scrollOf, coarseY_scrollOf, coarseX_scrollOf]

theorem incY_scrollOf : incY (scrollOf fy ny nx cy cx) =
    if fy ≠ 7 then scrollOf (fy + 1) ny nx cy cx
    else if cy = 29 then scrollOf 0 (~~~ny) nx 0 cx
    else if cy = 31 then scrollOf 0 ny nx 0 cx
    else scrollOf 0 ny nx (cy + 1) cx := by
  simp only [incY, fineY_scrollOf, ntY_scrollOf, ntX_scrollOf, coarseY_scrollOf, coarseX_scrollOf]

end

theorem scrollOf_fields (v : BitVec 15) : scrollOf (fineY v) (ntY v) (ntX v) (coarseY v) (coarseX v) = v := by
  have hv := v.isLt
  apply BitVec.eq_of_toNat_eq
  rw [scrollOf_toNat, fineY_toNat, ntY_toNat, ntX_toNat, coarseY_toNat, coarseX_toNat]
  omega

/-- 32 horizontal steps: the same column of the neighbouring table. -/
theorem incX_iterate (fy : BitVec 3) (ny nx : BitVec 1) (cy cx : BitVec 5) :
    incX^[32] (scrollOf fy ny nx cy cx) = scrollOf fy ny (~~~nx) cy cx := by
  have hstep : ∀ (table : BitVec 1), ∀ i < 31, incX (scrollOf fy ny table cy (BitVec.ofNat 5 i)) =
      scrollOf fy ny table cy (BitVec.ofNat 5 (i + 1)) := by
    intro table i hi
    rw [incX_scrollOf, if_neg (by bv_omega), BitVec.ofNat_add]
    rfl
  have h := iterate_throughTable (x := fun i => scrollOf fy ny nx cy (BitVec.ofNat 5 i))
    (hstep nx) (incX_scrollOf fy ny nx cy 31) (hstep (~~~nx)) (Nat.le_of_lt_succ cx.isLt)
  simpa using h

theorem incY_fine (ny nx : BitVec 1) (cy cx : BitVec 5) {i : Nat} (hi : i < 7) :
    incY (scrollOf (BitVec.ofNat 3 i) ny nx cy cx) = scrollOf (BitVec.ofNat 3 (i + 1)) ny nx cy cx := by
  rw [incY_scrollOf, if_pos (by bv_omega), BitVec.ofNat_add]
  rfl

/-- Line `fy` of the row under a row (R457): that of the neighbouring table under its last row, 29. -/
def nextRow (ny nx : BitVec 1) (cy cx : BitVec 5) (fy : BitVec 3) : BitVec 15 :=
  if cy = 29 then scrollOf fy (~~~ny) nx 0 cx
  else if cy = 31 then scrollOf fy ny nx 0 cx
  else scrollOf fy ny nx (cy + 1) cx

/-- Eight vertical steps: the same line of the next row. -/
theorem incY_iterate_eight (fy : BitVec 3) (ny nx : BitVec 1) (cy cx : BitVec 5) :
    incY^[8] (scrollOf fy ny nx cy cx) = nextRow ny nx cy cx fy := by
  have hbelow : ∀ i < 7, incY (nextRow ny nx cy cx (BitVec.ofNat 3 i)) = nextRow ny nx cy cx (BitVec.ofNat 3 (i + 1)) := by
    intro i hi
    unfold nextRow
    split_ifs <;> exact incY_fine _ _ _ _ hi
  have h := iterate_throughTable (x := fun i => scrollOf (BitVec.ofNat 3 i) ny nx cy cx)
    (fun i hi => incY_fine ny nx cy cx hi) (incY_scrollOf 7 ny nx cy cx) hbelow (Nat.le_of_lt_succ fy.isLt)
  simpa using h

/-- 240 vertical steps: the same line of the same row of the neighbouring table. -/
theorem incY_iterate (fy : BitVec 3) (ny nx : BitVec 1) (cy cx : BitVec 5) (h : cy.toNat < 30) :
    incY^[240] (scrollOf fy ny nx cy cx) = scrollOf fy (~~~ny) nx cy cx := by
  have hstep : ∀ (table : BitVec 1), ∀ i < 29, incY^[8] (scrollOf fy table nx (BitVec.ofNat 5 i) cx) =
      scrollOf fy table nx (BitVec.ofNat 5 (i + 1)) cx := by
    intro table i hi
    rw [incY_iterate_eight, nextRow, if_neg (by bv_omega), if_neg (by bv_omega), BitVec.ofNat_add]
    rfl
  have hlast : incY^[8] (scrollOf fy ny nx (BitVec.ofNat 5 29) cx) = scrollOf fy (~~~ny) nx (BitVec.ofNat 5 0) cx :=
    incY_iterate_eight fy ny nx 29 cx
  have hall := iterate_throughTable (x := fun i => scrollOf fy ny nx (BitVec.ofNat 5 i) cx)
    (y := fun i => scrollOf fy (~~~ny) nx (BitVec.ofNat 5 i) cx)
    (hstep ny) hlast (hstep (~~~ny)) (Nat.le_of_lt_succ h)
  rw [← Function.iterate_mul] at hall
  rw [BitVec.ofNat_toNat, BitVec.setWidth_eq] at hall
  exact hall

/-- Exchanging the horizontal name table flips bit 10 (R47). -/
theorem xor_ntX (v : BitVec 15) : v ^^^ 0x0400 = scrollOf (fineY v) (ntY v) (~~~ntX v) (coarseY v) (coarseX v) := by
  apply BitVec.eq_of_getLsbD_eq
  intro i hi
  simp only [scrollOf, fineY, ntY, ntX, coarseY, coarseX, BitVec.getLsbD_append, BitVec.getLsbD_xor]
  interval_cases i <;> simp

/-- Exchanging the vertical name table flips bit 11 (R47). -/
theorem xor_ntY (v : BitVec 15) : v ^^^ 0x0800 = scrollOf (fineY v) (~~~ntY v) (ntX v) (coarseY v) (coarseX v) := by
  apply BitVec.eq_of_getLsbD_eq
  intro i hi
  simp only [scrollOf, fineY, ntY, ntX, coarseY, coarseX, BitVec.getLsbD_append, BitVec.getLsbD_xor]
  interval_cases i <;> simp

/-- A horizontal step changes no vertical field. -/
theorem incX_vertical (v : BitVec 15) :
    coarseY (incX v) = coarseY v ∧ ntY (incX v) = ntY v ∧ fineY (incX v) = fineY v := by
  unfold incX
  split <;> simp only [coarseY_scrollOf, ntY_scrollOf, fineY_scrollOf, and_self]

/-- A vertical step changes no horizontal field. -/
theorem incY_horizontal (v : BitVec 15) : coarseX (incY v) = coarseX v ∧ ntX (incY v) = ntX v := by
  unfold incY
  split_ifs <;> simp only [coarseX_scrollOf, ntX_scrollOf, and_self]

/-- Settles O51. -/
theorem scrollIncrementsWrapIntoTheNextTable : Obligations.ScrollIncrementsWrapIntoTheNextTable := by
  unfold Obligations.ScrollIncrementsWrapIntoTheNextTable
  refine ⟨fun v => ?_, fun v h => ?_, fun v => ?_, fun v => ?_⟩
  · rw [xor_ntX, ← incX_iterate, scrollOf_fields]
  · rw [xor_ntY, ← incY_iterate _ _ _ _ _ (by rw [coarseY_toNat]; exact h), scrollOf_fields]
  · obtain ⟨hrow, htable, hline⟩ := incX_vertical v
    have htop : ∀ w : BitVec 15, w.toNat / 2048 = 2 * (fineY w).toNat + (ntY w).toNat := by
      intro w
      rw [fineY_toNat, ntY_toNat]
      omega
    rw [← coarseY_toNat, ← coarseY_toNat, htop, htop, hrow, htable, hline]
    exact ⟨rfl, rfl⟩
  · obtain ⟨hcolumn, htable⟩ := incY_horizontal v
    rw [← coarseX_toNat, ← coarseX_toNat, ← ntX_toNat, ← ntX_toNat, hcolumn, htable]
    exact ⟨rfl, rfl⟩

end Sys2Proof.Machine
end

section
/-! The mapper variants (63_mapper.md): banks, registers, mirroring, and the scanline counter. -/

namespace Sys2Proof.Machine

/-! ### Bits of an address -/

/-- The address bits that select a ScanlineIrq register: the upper three and the lowest (R597). -/
theorem select_eq (a : Word) : a &&& 0xE001 = BitVec.ofNat 16 (a.toNat / 0x2000 * 0x2000 + a.toNat % 2) := by
  have h : a &&& 0xE001 = a.extractLsb' 13 3 ++ (0 : BitVec 12) ++ a.extractLsb' 0 1 := by
    apply BitVec.eq_of_getLsbD_eq
    intro i hi
    have hlow := BitVec.getLsbD_append (x := a.extractLsb' 13 3 ++ (0 : BitVec 12)) (y := a.extractLsb' 0 1) (i := i)
    have hhigh := BitVec.getLsbD_append (x := a.extractLsb' 13 3) (y := (0 : BitVec 12)) (i := i - 1)
    rw [BitVec.getLsbD_and, hlow, hhigh]
    interval_cases i <;> simp
  have hzero : (0 : BitVec 12).toNat = 0 := rfl
  have ha := a.isLt
  apply BitVec.eq_of_toNat_eq
  rw [h, toNat_append_eq, toNat_append_eq, toNat_field, toNat_field, hzero, BitVec.toNat_ofNat]
  omega

/-- The two halves of the pattern tables exchanged: bit 12 flipped (R599). -/
theorem xor_half_toNat {a : BitVec 14} (h : a.toNat ≤ 0x1FFF) :
    (a ^^^ 0x1000).toNat = (a.toNat + 0x1000) % 0x2000 := by
  have hxor : a ^^^ 0x1000 = a.extractLsb' 13 1 ++ ~~~(a.extractLsb' 12 1) ++ a.extractLsb' 0 12 := by
    apply BitVec.eq_of_getLsbD_eq
    intro i hi
    have hlow := BitVec.getLsbD_append (x := a.extractLsb' 13 1 ++ ~~~(a.extractLsb' 12 1)) (y := a.extractLsb' 0 12)
      (i := i)
    have hhigh := BitVec.getLsbD_append (x := a.extractLsb' 13 1) (y := ~~~(a.extractLsb' 12 1)) (i := i - 12)
    rw [BitVec.getLsbD_xor, hlow, hhigh]
    interval_cases i <;> simp
  rw [hxor, toNat_append_eq, toNat_append_eq, BitVec.toNat_not, toNat_field, toNat_field, toNat_field]
  omega

/-- A bank of 2 KiB is an even bank number and the address bit 10 (R599). -/
theorem evenBank_toNat (b : Byte) (bit : BitVec 1) :
    ((b &&& 0xFE) ||| bit.setWidth 8).toNat = b.toNat / 2 * 2 + bit.toNat := by
  have h : (b &&& 0xFE) ||| bit.setWidth 8 = b.extractLsb' 1 7 ++ bit := by
    apply BitVec.eq_of_getLsbD_eq
    intro i hi
    have happend := BitVec.getLsbD_append (x := b.extractLsb' 1 7) (y := bit) (i := i)
    rw [BitVec.getLsbD_or, BitVec.getLsbD_and, happend]
    interval_cases i <;> simp
  have hb := b.isLt
  rw [h, toNat_append_eq, toNat_field]
  omega

/-! ### Banks -/

theorem ScanlineRegs.chrBank_eq (r : ScanlineRegs) (a : BitVec 14) : r.chrBank a =
    if a.toNat < 0x0800 then r.r0.toNat / 2 * 2 + a.toNat / 0x400 % 2
    else if a.toNat < 0x1000 then r.r1.toNat / 2 * 2 + a.toNat / 0x400 % 2
    else if a.toNat < 0x1400 then r.r2.toNat
    else if a.toNat < 0x1800 then r.r3.toNat
    else if a.toNat < 0x1C00 then r.r4.toNat
    else r.r5.toNat := by
  simp only [ScanlineRegs.chrBank, evenBank_toNat, toNat_field]
  rfl

/-- The program bank by the address: the last at 0xE000, R7 at 0xA000, and R6 and the second-last exchanged by bit 6 of
the select (R598). -/
theorem ScanlineRegs.prgBank_eq (r : ScanlineRegs) (len : Nat) {n : Nat} : r.prgBank len n =
    if 0xE000 ≤ n then len / 0x2000 - 1
    else if 0xA000 ≤ n ∧ n < 0xC000 then r.r7.toNat
    else if (0xC000 ≤ n) = (r.bankSelect.getLsbD 6 = true) then r.r6.toNat
    else len / 0x2000 - 2 := by
  unfold ScanlineRegs.prgBank
  dsimp only
  by_cases hA : n < 0xA000
  · rw [if_pos hA, if_neg (show ¬ 0xE000 ≤ n by omega), if_neg (show ¬ (0xA000 ≤ n ∧ n < 0xC000) by omega)]
    have hC : ¬ 0xC000 ≤ n := by omega
    cases r.bankSelect.getLsbD 6 <;> simp [hC]
  · rw [if_neg hA]
    by_cases hC : n < 0xC000
    · rw [if_pos hC, if_neg (show ¬ 0xE000 ≤ n by omega), if_pos (show 0xA000 ≤ n ∧ n < 0xC000 by omega)]
    · rw [if_neg hC]
      by_cases hE : n < 0xE000
      · rw [if_pos hE, if_neg (show ¬ 0xE000 ≤ n by omega), if_neg (show ¬ (0xA000 ≤ n ∧ n < 0xC000) by omega)]
        have hC' : 0xC000 ≤ n := by omega
        cases r.bankSelect.getLsbD 6 <;> simp [hC']
      · rw [if_neg hE, if_pos (show 0xE000 ≤ n by omega)]

/-- The eight bank registers: the select's lower three bits name the one that takes the masked value (R597, R585). -/
theorem ScanlineRegs.write_bank (r : ScanlineRegs) (p : ChipParams) {a : Word} (v : Byte) (h : a &&& 0xE001 = 0x8001) :
    let i := r.bankSelect.toNat % 8
    let chr (j : Nat) (old : Byte) : Byte := if i = j then v &&& p.bankMaskChr1 else old
    let prg (j : Nat) (old : Byte) : Byte := if i = j then v &&& p.bankMaskPrg8 else old
    r.write p a v = { r with
      r0 := chr 0 r.r0, r1 := chr 1 r.r1, r2 := chr 2 r.r2, r3 := chr 3 r.r3, r4 := chr 4 r.r4, r5 := chr 5 r.r5
      r6 := prg 6 r.r6, r7 := prg 7 r.r7 } := by
  have hi : (r.bankSelect.extractLsb' 0 3).toNat = r.bankSelect.toNat % 8 := by simp
  have hlt : r.bankSelect.toNat % 8 < 8 := Nat.mod_lt _ (by decide)
  simp only [ScanlineRegs.write, h, hi]
  generalize r.bankSelect.toNat % 8 = i at hlt
  interval_cases i <;> rfl

/-- A register write, by the place of the address in 0x8000..0xFFFF and its parity (R597). -/
theorem ScanlineRegs.write_eq (r : ScanlineRegs) (p : ChipParams) {a : Word} (v : Byte) (h : 0x8000 ≤ a.toNat) :
    let i := r.bankSelect.toNat % 8
    let chr (j : Nat) (old : Byte) : Byte := if i = j then v &&& p.bankMaskChr1 else old
    let prg (j : Nat) (old : Byte) : Byte := if i = j then v &&& p.bankMaskPrg8 else old
    r.write p a v =
      if a.toNat < 0xA000 then
        if a.toNat % 2 = 0 then { r with bankSelect := v }
        else { r with
          r0 := chr 0 r.r0, r1 := chr 1 r.r1, r2 := chr 2 r.r2, r3 := chr 3 r.r3, r4 := chr 4 r.r4, r5 := chr 5 r.r5
          r6 := prg 6 r.r6, r7 := prg 7 r.r7 }
      else if a.toNat < 0xC000 then
        if a.toNat % 2 = 0 then { r with mirror := v.getLsbD 0 }
        else { r with ramEnable := v.getLsbD 7, ramProtect := v.getLsbD 6 }
      else if a.toNat < 0xE000 then
        if a.toNat % 2 = 0 then { r with irqLatch := v } else { r with irqCounter := 0x00, irqReload := true }
      else
        if a.toNat % 2 = 0 then { r with irqEnabled := false, irqFlag := false } else { r with irqEnabled := true } := by
  have ha := a.isLt
  have hsel := select_eq a
  have hcases : ∀ k b, a.toNat / 0x2000 = k → a.toNat % 2 = b → a &&& 0xE001 = BitVec.ofNat 16 (k * 0x2000 + b) := by
    rintro _ _ rfl rfl
    exact hsel
  intro i chr prg
  split_ifs with hA hb hC hb hE hb hb
  · rw [ScanlineRegs.write, hcases 4 0 (by omega) hb]
    rfl
  · exact r.write_bank p v (hcases 4 1 (by omega) (by omega))
  · rw [ScanlineRegs.write, hcases 5 0 (by omega) hb]
    rfl
  · rw [ScanlineRegs.write, hcases 5 1 (by omega) (by omega)]
    rfl
  · rw [ScanlineRegs.write, hcases 6 0 (by omega) hb]
    rfl
  · rw [ScanlineRegs.write, hcases 6 1 (by omega) (by omega)]
    rfl
  · rw [ScanlineRegs.write, hcases 7 0 (by omega) hb]
    rfl
  · rw [ScanlineRegs.write, hcases 7 1 (by omega) (by omega)]
    rfl

/-! ### Storage -/

/-- Save memory at 0x6000..0x7FFF, and nothing below (R590, R593, R598, R603). -/
theorem saveMemory_access (p : ChipParams) (c : Cartridge) {a : Word} (v : Byte) (h : a.toNat < 0x8000)
    (hc : c.variant ≠ .empty) :
    let shown : Bool := match c.variant with | .scanlineIrq r => r.ramEnable | _ => true
    let writable : Bool := match c.variant with | .scanlineIrq r => r.ramEnable && !r.ramProtect | _ => true
    if a.toNat < 0x6000 then cpuRead c a = none ∧ cpuWrite c p a v = c
    else
      cpuRead c a = (if shown then some (Cells.read c.prgRam (a.toNat - 0x6000)) else none) ∧
      cpuWrite c p a v = if writable then { c with prgRam := Cells.write c.prgRam (a.toNat - 0x6000) v } else c := by
  unfold cpuRead cpuWrite Cartridge.writePrgRam
  by_cases h6 : a.toNat < 0x6000
  · cases hv : c.variant with
    | empty => exact absurd hv hc
    | _ => simp [h6]
  · cases hv : c.variant with
    | empty => exact absurd hv hc
    | _ => simp [h6, h]

/-- Character storage (R590, R593, R599, R586). -/
theorem chrIndex_eq (c : Cartridge) {a : BitVec 14} (h : a.toNat ≤ 0x1FFF) :
    let index : Nat :=
      match c.variant with
      | .scanlineIrq r =>
        let a' := if r.bankSelect.getLsbD 7 then (a.toNat + 0x1000) % 0x2000 else a.toNat
        let bank :=
          if a' < 0x0800 then r.r0.toNat / 2 * 2 + a' / 0x400 % 2
          else if a' < 0x1000 then r.r1.toNat / 2 * 2 + a' / 0x400 % 2
          else if a' < 0x1400 then r.r2.toNat
          else if a' < 0x1800 then r.r3.toNat
          else if a' < 0x1C00 then r.r4.toNat
          else r.r5.toNat
        bank * 0x400 + a.toNat % 0x400
      | _ => a.toNat
    chrIndex c a = index % c.chrLen := by
  unfold chrIndex
  cases hv : c.variant with
  | scanlineIrq r =>
    have ha : (if r.bankSelect.getLsbD 7 then a ^^^ 0x1000 else a).toNat =
        if r.bankSelect.getLsbD 7 then (a.toNat + 0x1000) % 0x2000 else a.toNat := by
      rw [apply_ite BitVec.toNat, xor_half_toNat h]
    simp only [ScanlineRegs.chrBank_eq, ha]
  | _ => rfl

theorem mirroring_eq (c : Cartridge) : mirroring c =
    match c.variant, c.mirroringHdr with
    | .empty, _ => .horizontal
    | _, .fourScreen => .fourScreen
    | .scanlineIrq r, _ => if r.mirror then .horizontal else .vertical
    | _, .horizontal => .horizontal
    | _, .vertical => .vertical := by
  unfold mirroring
  cases c.variant <;> cases c.mirroringHdr <;> rfl

/-- Settles O58, clause by clause from the laws above. -/
theorem programBanks : Obligations.ProgramBanks := by
  unfold Obligations.ProgramBanks
  refine ⟨fun p c a v h hc => saveMemory_access p c v h hc, fun c hc => ?_, fun p c a ha hlen => ⟨fun hc => ?_,
    fun bank v hc => ?_, fun r hc => ?_⟩, fun p c r a v ha hc => ?_, fun c a v ha hc _ => ?_, mirroring_eq⟩
  · simp [cpuRead, cpuWrite, ppuChrRead, ppuChrWrite, onScanline, mapperIrq, hc]
  · simp [cpuRead, cpuWrite, hc, banked, show ¬ a.toNat < 0x6000 by omega, show ¬ a.toNat < 0x8000 by omega]
  · have hwrite : cpuWrite c p a v = { c with variant := .simpleBanked (v &&& p.bankMaskSimple) } := by
      simp only [cpuWrite, hc, if_neg (show ¬ a.toNat < 0x6000 by omega), if_neg (show ¬ a.toNat < 0x8000 by omega)]
    refine ⟨hwrite, fun b hb => ?_⟩
    simp only [hwrite, cpuRead, banked, if_neg (show ¬ b.toNat < 0x6000 by omega),
      if_neg (show ¬ b.toNat < 0x8000 by omega)]
    split <;> rfl
  · simp only [cpuRead, hc, banked, if_neg (show ¬ a.toNat < 0x6000 by omega),
      if_neg (show ¬ a.toNat < 0x8000 by omega), ScanlineRegs.prgBank_eq]
    rw [show a.toNat - a.toNat / 0x2000 * 0x2000 = a.toNat % 0x2000 by omega]
  · simp only [cpuWrite, hc, if_neg (show ¬ a.toNat < 0x6000 by omega), if_neg (show ¬ a.toNat < 0x8000 by omega),
      r.write_eq p v ha]
  · have hindex := chrIndex_eq c ha
    cases hv : c.variant with
    | empty => exact absurd hv hc
    | _ => 
      simp only [hv] at hindex
      simp only [ppuChrRead, ppuChrWrite, hv, hindex, and_self]

/-! ### The scanline counter -/

/-- The counter after a counted line: loaded at 0 or on request, else one less (R605). -/
def ScanlineRegs.nextCount (r : ScanlineRegs) : Byte :=
  if r.irqCounter = 0x00 ∨ r.irqReload then r.irqLatch else r.irqCounter - 1

theorem ScanlineRegs.clock_eq (r : ScanlineRegs) : r.clock = { r with
    irqCounter := r.nextCount, irqReload := false, irqFlag := r.irqFlag || (r.nextCount == 0 && r.irqEnabled) } := by
  have hcount : (if r.irqCounter = 0x00 ∨ r.irqReload then { r with irqCounter := r.irqLatch, irqReload := false }
      else { r with irqCounter := r.irqCounter - 1 }) = { r with irqCounter := r.nextCount, irqReload := false } := by
    unfold ScanlineRegs.nextCount
    split
    · rfl
    · next h =>
      have : r.irqReload = false := by simpa using fun hr => h (Or.inr hr)
      rw [← this]
  have hraise : ∀ q : ScanlineRegs, (if q.irqCounter = 0x00 ∧ q.irqEnabled then { q with irqFlag := true } else q) =
      { q with irqFlag := q.irqFlag || (q.irqCounter == 0 && q.irqEnabled) } := by
    intro q
    split
    · next h => simp [h]
    · next h =>
      have : (q.irqCounter == 0 && q.irqEnabled) = false := by simpa using h
      rw [this, Bool.or_false]
  exact (hraise _).trans (by rw [hcount])

/-- The counter `k + 1` lines after a reload to `n`: it counts down to 0, and the request stands from then on. -/
structure ScanlineRegs.Counting (n : Byte) (k : Nat) (r : ScanlineRegs) : Prop where
  enabled : r.irqEnabled = true
  latch : r.irqLatch = n
  loaded : r.irqReload = false
  counter : k ≤ n.toNat → r.irqCounter.toNat = n.toNat - k
  flag : r.irqFlag = decide (n.toNat ≤ k)

theorem beq_zero_eq_decide (b : Byte) : (b == 0) = decide (b.toNat = 0) := by
  rw [Bool.eq_iff_iff, beq_iff_eq, decide_eq_true_iff, BitVec.toNat_eq]
  rfl

/-- The first counted line after the reload request loads the counter. -/
theorem ScanlineRegs.counting_of_reload {r : ScanlineRegs} (hr : r.irqReload = true) (he : r.irqEnabled = true)
    (hf : r.irqFlag = false) : r.clock.Counting r.irqLatch 0 := by
  have hnext : r.nextCount = r.irqLatch := if_pos (Or.inr hr)
  rw [ScanlineRegs.clock_eq, hnext]
  refine ⟨he, rfl, rfl, fun _ => rfl, ?_⟩
  simp only [hf, he, beq_zero_eq_decide, Bool.false_or, Bool.and_true, Nat.le_zero]

theorem ScanlineRegs.counting_clock {n : Byte} {k : Nat} {r : ScanlineRegs} (h : r.Counting n k) :
    r.clock.Counting n (k + 1) := by
  obtain ⟨henabled, hlatch, hloaded, hcounter, hflag⟩ := h
  have hdown : k < n.toNat → r.nextCount.toNat = n.toNat - (k + 1) := by
    intro hk
    have hc := hcounter hk.le
    have hpos : ¬(r.irqCounter = 0x00 ∨ r.irqReload) := by
      rintro (h0 | hr)
      · simp [h0] at hc
        omega
      · simp [hloaded] at hr
    rw [ScanlineRegs.nextCount, if_neg hpos, BitVec.toNat_sub_of_le (BitVec.le_def.mpr (by simp; omega)), hc]
    rfl
  rw [ScanlineRegs.clock_eq]
  refine ⟨henabled, hlatch, rfl, fun hk => hdown hk, ?_⟩
  by_cases hk : n.toNat ≤ k
  · simp [hflag, hk, Nat.le_succ_of_le hk]
  · have := hdown (by omega)
    simp only [hflag, hk, henabled, beq_zero_eq_decide, this, decide_false, Bool.false_or, Bool.and_true]
    exact decide_eq_decide.mpr (by omega)

/-- Settles O59: the registers count down from the latch value, and only an acknowledgement clears the request. -/
theorem scanlineCounterRequests : Obligations.ScanlineCounterRequests := by
  unfold Obligations.ScanlineCounterRequests
  intro p r n k
  refine ⟨?_, rfl⟩
  generalize harmed : (((r.write p 0xE000 0x00).write p 0xC000 n).write p 0xC001 0x00).write p 0xE001 0x00 = armed
  have hreload : armed.irqReload = true := by rw [← harmed]; rfl
  have henabled : armed.irqEnabled = true := by rw [← harmed]; rfl
  have hflag : armed.irqFlag = false := by rw [← harmed]; rfl
  have hlatch : armed.irqLatch = n := by rw [← harmed]; rfl
  have hcounting : ∀ k, (ScanlineRegs.clock^[k + 1] armed).Counting n k := by
    intro k
    induction k with
    | zero => exact hlatch ▸ ScanlineRegs.counting_of_reload hreload henabled hflag
    | succ k ih =>
      rw [Function.iterate_succ_apply']
      exact ScanlineRegs.counting_clock ih
  cases k with
  | zero => simpa using hflag
  | succ k => simpa using (hcounting k).flag

end Sys2Proof.Machine
end

section
/-! Cartridge load (R634): the checks, what the cartridge holds, and save memory through the reset sequence. -/

namespace Sys2Proof.Machine

/-- A store made from a list reads as the list, and as zeros after its end. -/
theorem Cells.read_ofList (vs : List Byte) (k j : Nat) :
    Cells.read (Cells.ofList vs k) j = if j < k then 0x00 else vs.getD (j - k) 0x00 := by
  induction vs generalizing k with
  | nil => simp [Cells.ofList, unlisted]
  | cons v vs ih =>
    rw [Cells.ofList, Cells.read_consCell v fun p hp => (Cells.mem_ofList hp).1, ih]
    rcases Nat.lt_trichotomy j k with hlt | rfl | hgt
    · rw [if_neg (by omega), if_pos hlt, if_pos hlt]
      rfl
    · rw [if_pos rfl, if_neg (by omega), Nat.sub_self]
      rfl
    · rw [if_neg (by omega), if_neg (by omega), if_neg (by omega), if_neg (by omega),
        show j - k = (j - (k + 1)) + 1 by omega]
      rfl

theorem Cells.read_ofList_zero (vs : List Byte) (j : Nat) : Cells.read (Cells.ofList vs) j = vs.getD j 0x00 := by
  rw [Cells.read_ofList, if_neg (by omega), Nat.sub_zero]

/-- The values of a store made from a list are the list. -/
theorem Cells.toList_ofList (vs : List Byte) : Cells.toList (Cells.ofList vs) vs.length = vs := by
  apply List.ext_getElem
  · simp [Cells.toList]
  · intro i hi hi'
    simp [Cells.toList, Cells.read_ofList_zero, hi']

theorem memFrame_resetLatches (s : State) : MemFrame s (resetLatches s) := by constructor <;> rfl

theorem memFrame_resetSequence (s : State) : MemFrame (audioOff s) (resetSequence s) := by
  rw [resetSequence_eq]
  exact ((readOnly_afterReads (resetReads s) (audioOff s)).mem.onCpu _).trans (memFrame_resetLatches _)

/-- Power-on keeps the save memory and the battery of the cartridge (R650). -/
theorem powerOn_saveMemory (cart : Cartridge) (draws : Draws) (chip : ChipParams) :
    (powerOn cart draws chip).cart.prgRam = cart.prgRam ∧
    (powerOn cart draws chip).cart.hasBattery = cart.hasBattery := by
  rw [powerOn]
  exact ⟨(memFrame_resetSequence _).prgRam, (memFrame_resetSequence _).battery⟩

theorem variantOf_isSome_iff (id : Nat) : (∃ v, variantOf id = some v) ↔ id ∈ [0, 2, 4] := by
  unfold variantOf
  split <;> simp_all

/-- An id is supported where the chip lists it and a variant has it (R587). -/
theorem supportedVariant_eq_none_iff (chip : ChipParams) (id : Nat) :
    supportedVariant chip id = none ↔ ¬(id ∈ chip.supportedMappers ∧ id ∈ [0, 2, 4]) := by
  rw [← variantOf_isSome_iff, supportedVariant]
  by_cases h : id ∈ chip.supportedMappers
  · simp [h, Option.eq_none_iff_forall_not_mem]
  · simp [h]

theorem supportedVariant_of_supported {chip : ChipParams} {id : Nat}
    (h : id ∈ chip.supportedMappers ∧ id ∈ [0, 2, 4]) : ∃ v, variantOf id = some v ∧ supportedVariant chip id = some v := by
  obtain ⟨v, hv⟩ := (variantOf_isSome_iff id).mpr h.2
  exact ⟨v, hv, by rw [supportedVariant, if_pos h.1, hv]⟩

theorem loadCartridge_of_error {image : Image} {save : Option (List Byte)} {chip : ChipParams} {e : LoadError}
    (h : checkImage image save chip = .error e) (draws : Draws) (prior : State) :
    loadCartridge image save draws chip (some prior) = (.error e, prior) := by
  rw [loadCartridge, h]
  rfl

/-- Settles O60. -/
theorem cartridgeLoadChecks : Obligations.CartridgeLoadChecks := by
  unfold Obligations.CartridgeLoadChecks
  refine ⟨fun image save draws chip prior => ⟨fun hno => ?_, fun hyes hbad => ?_, fun hyes hbanks hprg hchr hsave => ?_⟩,
    fun image b draws chip v hb hbattery => ?_, fun image save draws v => ?_⟩
  · refine loadCartridge_of_error ?_ draws prior
    rw [checkImage, (supportedVariant_eq_none_iff chip _).mpr hno]
  · obtain ⟨v, -, hv⟩ := supportedVariant_of_supported hyes
    refine loadCartridge_of_error ?_ draws prior
    simp only [checkImage, hv]
    split
    case isTrue => rfl
    case isFalse hgood =>
      obtain ⟨b, rfl, hb⟩ : ∃ b, save = some b ∧ b.length ≠ 0x2000 := by
        simp only [prgBankSize, chrBankSize] at hgood
        tauto
      exact if_pos hb
  · obtain ⟨v, hvariant, hv⟩ := supportedVariant_of_supported hyes
    refine ⟨v, hvariant, ?_⟩
    have hok : checkImage image save chip = .ok v := by
      have hgood : ¬(image.prgBanks = 0 ∨ image.prg.length ≠ image.prgBanks * prgBankSize ∨
          image.chr.length ≠ image.chrBanks * chrBankSize) := by
        simp only [prgBankSize, chrBankSize]
        tauto
      simp only [checkImage, hv, if_neg hgood]
      cases save with
      | none => rfl
      | some b => exact if_neg (not_not.mpr (hsave b rfl))
    rw [loadCartridge, hok]
  · obtain ⟨hram, hkept⟩ := powerOn_saveMemory (image.cartridge (some b) draws v) draws chip
    have hlist : Cells.toList (Cells.ofList b) saveSize = b := by
      rw [show saveSize = b.length from hb.symm, Cells.toList_ofList]
    rw [exportSaveMemory, hram, hkept]
    exact (if_pos hbattery).trans (congrArg some hlist)
  · refine ⟨rfl, rfl, Cells.read_ofList_zero _, rfl, Cells.read_ofList_zero _, ?_, Cells.read_ofList_zero _, rfl, rfl, rfl,
      rfl⟩
    exact beq_iff_eq

end Sys2Proof.Machine
end

section
/-! The Audio Unit's enables and status (R550, R551), and the length loads (R526, R552). -/

namespace Sys2Proof.Machine

theorem Dmc.restart_eq (d : Dmc) : d.restart = { d with
    curAddr := BitVec.ofNat 16 (0xC000 + 64 * d.addrReg.toNat)
    bytesLeft := BitVec.ofNat 12 (16 * d.lenReg.toNat + 1) } := by
  have haddr : (0xC000 : Word) + 64 * d.addrReg.setWidth 16 = BitVec.ofNat 16 (0xC000 + 64 * d.addrReg.toNat) := by
    apply BitVec.eq_of_toNat_eq
    simp
  have hlen : 16 * d.lenReg.setWidth 12 + 1 = BitVec.ofNat 12 (16 * d.lenReg.toNat + 1) := by
    apply BitVec.eq_of_toNat_eq
    simp
  rw [Dmc.restart, haddr, hlen]

/-- A restarted sample has at least one byte. -/
theorem sampleLength_ne_zero (b : Byte) : BitVec.ofNat 12 (16 * b.toNat + 1) ≠ 0 := by
  intro h
  have hb := b.isLt
  have := congrArg BitVec.toNat h
  simp at this
  omega

/-- The enable write, cell by cell (R550). -/
theorem Apu.enableWrite_eq (u : Apu) (v : Byte) :
    let kept (bit : Nat) (length : Byte) : Byte := if v.getLsbD bit then length else 0
    u.enableWrite v = { u with
      pulse1 := { u.pulse1 with enabled := v.getLsbD 0, length := kept 0 u.pulse1.length }
      pulse2 := { u.pulse2 with enabled := v.getLsbD 1, length := kept 1 u.pulse2.length }
      triangle := { u.triangle with enabled := v.getLsbD 2, length := kept 2 u.triangle.length }
      noise := { u.noise with enabled := v.getLsbD 3, length := kept 3 u.noise.length }
      dmc := { u.dmc with
        enabled := v.getLsbD 4, irqFlag := false
        bytesLeft :=
          if v.getLsbD 4 = false then 0
          else if u.dmc.bytesLeft = 0 then BitVec.ofNat 12 (16 * u.dmc.lenReg.toNat + 1) else u.dmc.bytesLeft
        curAddr :=
          if v.getLsbD 4 = true ∧ u.dmc.bytesLeft = 0 then BitVec.ofNat 16 (0xC000 + 64 * u.dmc.addrReg.toNat)
          else u.dmc.curAddr } } := by
  have hdmc : { (if v.getLsbD 4 = false then { u.dmc with bytesLeft := 0 }
      else if u.dmc.bytesLeft = 0 then u.dmc.restart else u.dmc) with enabled := v.getLsbD 4, irqFlag := false } =
      { u.dmc with
        enabled := v.getLsbD 4, irqFlag := false
        bytesLeft :=
          if v.getLsbD 4 = false then 0
          else if u.dmc.bytesLeft = 0 then BitVec.ofNat 12 (16 * u.dmc.lenReg.toNat + 1) else u.dmc.bytesLeft
        curAddr :=
          if v.getLsbD 4 = true ∧ u.dmc.bytesLeft = 0 then BitVec.ofNat 16 (0xC000 + 64 * u.dmc.addrReg.toNat)
          else u.dmc.curAddr } := by
    cases v.getLsbD 4
    · simp
    · by_cases hleft : u.dmc.bytesLeft = 0
      · simp only [hleft, Dmc.restart_eq, Bool.true_eq_false, if_true, if_false, and_self]
      · simp only [hleft, Bool.true_eq_false, if_false, and_false]
  simp only [Apu.enableWrite, hdmc]
  rfl

/-- The eight bits of the status byte (R551, R64). -/
theorem Apu.statusByte_bits (u : Apu) (openBus : Byte) :
    (u.statusByte openBus).getLsbD 0 = (u.pulse1.length != 0) ∧
    (u.statusByte openBus).getLsbD 1 = (u.pulse2.length != 0) ∧
    (u.statusByte openBus).getLsbD 2 = (u.triangle.length != 0) ∧
    (u.statusByte openBus).getLsbD 3 = (u.noise.length != 0) ∧
    (u.statusByte openBus).getLsbD 4 = (u.dmc.bytesLeft != 0) ∧
    (u.statusByte openBus).getLsbD 5 = openBus.getLsbD 5 ∧
    (u.statusByte openBus).getLsbD 6 = u.seq.frameIrq ∧
    (u.statusByte openBus).getLsbD 7 = u.dmc.irqFlag := by
  simp only [Apu.statusByte, BitVec.getLsbD_append]
  simp

theorem enabled_length_ne_zero (bit : Bool) (length : Byte) :
    ((if bit then length else 0) != 0) = (bit && length != 0) := by
  cases bit <;> rfl

/-- The sample channel has bytes left after the write exactly where it is enabled: an ended sample starts again (R550). -/
theorem Apu.enableWrite_sample (u : Apu) (v : Byte) : ((u.enableWrite v).dmc.bytesLeft != 0) = v.getLsbD 4 := by
  have hleft : (u.enableWrite v).dmc.bytesLeft = if v.getLsbD 4 = false then 0
      else if u.dmc.bytesLeft = 0 then BitVec.ofNat 12 (16 * u.dmc.lenReg.toNat + 1) else u.dmc.bytesLeft := by
    rw [Apu.enableWrite_eq]
  rw [hleft]
  cases v.getLsbD 4
  · rfl
  · rw [if_neg Bool.true_eq_false.mp, bne_iff_ne]
    split
    · exact sampleLength_ne_zero _
    · assumption

/-- Settles O56. -/
theorem audioEnableAndStatus : Obligations.AudioEnableAndStatus := by
  unfold Obligations.AudioEnableAndStatus
  intro s v t b u kept
  have ht : t = { s with openBus := v, apu := s.apu.enableWrite v } := rfl
  obtain ⟨h0, h1, h2, h3, h4, h5, h6, h7⟩ := t.apu.statusByte_bits v
  refine ⟨ht.trans (by rw [Apu.enableWrite_eq]), ?_, ?_, ?_, ?_, ?_, ?_, ?_, ?_, rfl, ?_, ?_, ?_, ?_⟩
  · exact h0.trans (enabled_length_ne_zero _ _)
  · exact h1.trans (enabled_length_ne_zero _ _)
  · exact h2.trans (enabled_length_ne_zero _ _)
  · exact h3.trans (enabled_length_ne_zero _ _)
  · exact h4.trans (s.apu.enableWrite_sample v)
  · exact h5
  · exact h6
  · exact h7
  · exact loadedLength_eq _ _ _
  · exact loadedLength_eq _ _ _
  · exact loadedLength_eq _ _ _
  · exact loadedLength_eq _ _ _

end Sys2Proof.Machine
end

section
/-! The frame sequencer (R545, R546): what the quarter and half clocks do, and its tick by the cases of the schedules. -/

namespace Sys2Proof.Machine

theorem toNat_pos_iff_ne_zero {n : Nat} (x : BitVec n) : 0 < x.toNat ↔ x ≠ 0 := by
  rw [Nat.pos_iff_ne_zero, Ne, Ne, BitVec.toNat_eq]
  simp

/-- The envelope's divider (R525). -/
theorem envelopeClock_fst (start halt : Bool) (vol div decay : BitVec 4) :
    (envelopeClock start halt vol div decay).1 = if start ∨ div = 0 then vol else div - 1 := by
  unfold envelopeClock
  by_cases hs : start = true
  · rw [if_pos hs, if_pos (Or.inl hs)]
  · by_cases hd : div = 0
    · rw [if_neg hs, if_pos hd, if_pos (Or.inr hd)]
    · rw [if_neg hs, if_neg hd, if_neg (by tauto)]

/-- The envelope's decay level (R525). -/
theorem envelopeClock_snd (start halt : Bool) (vol div decay : BitVec 4) :
    (envelopeClock start halt vol div decay).2 =
      if start then 15 else if div ≠ 0 then decay else if 0 < decay.toNat then decay - 1 else if halt then 15 else 0 := by
  unfold envelopeClock
  by_cases hs : start = true
  · rw [if_pos hs, if_pos hs]
  · by_cases hd : div = 0
    · rw [if_neg hs, if_neg hs, if_pos hd, if_neg (not_not.mpr hd)]
      by_cases hz : decay = 0
      · simp [hz]
      · simp only [toNat_pos_iff_ne_zero, ne_eq, hz, not_false_eq_true, if_true]
    · rw [if_neg hs, if_neg hs, if_neg hd, if_pos hd]

theorem lengthClock_eq (halt : Bool) (length : Byte) :
    lengthClock halt length = if halt = false ∧ 0 < length.toNat then length - 1 else length := by
  simp only [lengthClock, toNat_pos_iff_ne_zero]

theorem Triangle.linearClock_eq (t : Triangle) : t.linearClock = { t with
    linear := if t.linReload then t.linReloadVal else if 0 < t.linear.toNat then t.linear - 1 else 0
    linReload := t.linReload && t.ctrl } := by
  unfold Triangle.linearClock
  by_cases hz : t.linear = 0
  · simp [hz]
  · simp only [toNat_pos_iff_ne_zero, ne_eq, hz, not_false_eq_true, if_true]

/-- The sweep's target (R537), the shift as a quotient. -/
theorem Pulse.sweepTarget_eq (p : Pulse) (first : Bool) : p.sweepTarget first =
    let c := p.period.toNat / 2 ^ p.swShift.toNat
    if p.swNeg then p.period.toNat - (c + first.toNat) else p.period.toNat + c := by
  have hc : (p.period >>> p.swShift.toNat).toNat = p.period.toNat / 2 ^ p.swShift.toNat := by
    rw [BitVec.toNat_ushiftRight, Nat.shiftRight_eq_div_pow]
  rw [Pulse.sweepTarget, hc]
  cases first <;> simp [Nat.sub_sub]

/-- The half clock of a pulse channel: length counter and sweep (R526, R537). -/
theorem Pulse.half_eq (q : Pulse) (first : Bool) : q.lengthClock.sweepClock first = { q with
    length := Machine.lengthClock q.halt q.length
    period :=
      if q.swDiv = 0 ∧ q.swEn ∧ q.swShift ≠ 0 ∧ 8 ≤ q.period.toNat ∧ q.sweepTarget first ≤ 0x7FF then
        BitVec.ofNat 11 (q.sweepTarget first)
      else q.period
    swDiv := if q.swDiv = 0 ∨ q.swReload then q.swPeriod else q.swDiv - 1
    swReload := false } := by
  have htarget : q.lengthClock.sweepTarget first = q.sweepTarget first := rfl
  unfold Pulse.sweepClock
  rw [htarget]
  by_cases h : q.swDiv = 0 ∨ q.swReload
  · have h' : q.lengthClock.swDiv = 0 ∨ q.lengthClock.swReload := h
    simp only [h, if_true]
    rw [if_pos h']
    rfl
  · have h' : ¬(q.lengthClock.swDiv = 0 ∨ q.lengthClock.swReload) := h
    have hr : q.swReload = false := by simpa using fun hr => h (Or.inr hr)
    simp only [h, if_false]
    rw [if_neg h', ← hr]
    rfl

/-- The clocks of one tick: the quarter clock first, then the half clock (R545). -/
def Apu.clocks (quarter half : Bool) (u : Apu) : Apu :=
  let w := if quarter then u.quarter else u
  if half then w.half else w

/-- The clocks touch no cell of the sequencer itself. -/
theorem Apu.clocks_withSeq (quarter half : Bool) (u : Apu) (q : FrameSeq) :
    ({ u with seq := q } : Apu).clocks quarter half = { u.clocks quarter half with seq := q } := by
  cases quarter <;> cases half <;> rfl

/-- The 4-step schedule as its clocks, its request and its restart (R545). -/
theorem Apu.schedule4_eq (u : Apu) :
    let n := u.seq.cycle
    u.schedule4 = { u.clocks (n ∈ [7457, 14913, 22371, 29829]) (n ∈ [14913, 29829]) with seq := { u.seq with
      cycle := if n = 29830 then 0 else n
      frameIrq := u.seq.frameIrq || (!u.seq.irqInhibit && decide (29828 ≤ n ∧ n ≤ 29830)) } } := by
  obtain ⟨p1, p2, t, no, d, ⟨mode, inhibit, n, irq, delay⟩, levels⟩ := u
  have hcases : n = 7457 ∨ n = 14913 ∨ n = 22371 ∨ n = 29828 ∨ n = 29829 ∨ n = 29830 ∨
      (n ≠ 7457 ∧ n ≠ 14913 ∧ n ≠ 22371 ∧ n ≠ 29828 ∧ n ≠ 29829 ∧ n ≠ 29830) := by omega
  rcases hcases with rfl | rfl | rfl | rfl | rfl | rfl | ⟨h1, h2, h3, h4, h5, h6⟩
  case inr.inr.inr.inr.inr.inr =>
    have hout : ¬(29828 ≤ n ∧ n ≤ 29830) := by omega
    simp [Apu.schedule4, Apu.clocks, h1, h2, h3, h4, h5, h6, hout]
  all_goals simp [Apu.schedule4, Apu.clocks, Apu.raiseFrameIrq, Apu.setFsCycle, Apu.quarter, Apu.half]

/-- The 5-step schedule as its clocks and its restart (R545). -/
theorem Apu.schedule5_eq (u : Apu) :
    let n := u.seq.cycle
    u.schedule5 = { u.clocks (n ∈ [7457, 14913, 22371, 37281]) (n ∈ [14913, 37281]) with
      seq := { u.seq with cycle := if n = 37282 then 0 else n } } := by
  obtain ⟨p1, p2, t, no, d, ⟨mode, inhibit, n, irq, delay⟩, levels⟩ := u
  have hcases : n = 7457 ∨ n = 14913 ∨ n = 22371 ∨ n = 37281 ∨ n = 37282 ∨
      (n ≠ 7457 ∧ n ≠ 14913 ∧ n ≠ 22371 ∧ n ≠ 37281 ∧ n ≠ 37282) := by omega
  rcases hcases with rfl | rfl | rfl | rfl | rfl | ⟨h1, h2, h3, h4, h5⟩
  case inr.inr.inr.inr.inr => simp [Apu.schedule5, Apu.clocks, h1, h2, h3, h4, h5]
  all_goals simp [Apu.schedule5, Apu.clocks, Apu.setFsCycle, Apu.quarter, Apu.half]

/-- The delayed restart: the delay counts down, and at its end the count is 0 and the 5-step schedule clocks (R546). -/
theorem Apu.delayedRestart_eq (u : Apu) :
    let restart : Bool := u.seq.resetDelay = 1
    u.delayedRestart = { (if restart && u.seq.mode then u.quarter.half else u) with seq := { u.seq with
      cycle := if restart then 0 else u.seq.cycle, resetDelay := u.seq.resetDelay - 1 } } := by
  obtain ⟨p1, p2, t, no, d, ⟨mode, inhibit, n, irq, delay⟩, levels⟩ := u
  rcases delay with _ | _ | delay
  · simp [Apu.delayedRestart]
  · cases mode <;> simp [Apu.delayedRestart, Apu.setFsCycle, Apu.quarter, Apu.half]
  · simp [Apu.delayedRestart]

/-- One tick of the sequencer (R545): the clocks of the schedule, then those of a restart. -/
theorem Apu.sequencerTick_eq (u : Apu) :
    let n := u.seq.cycle + 1
    let restart : Bool := u.seq.resetDelay = 1
    let w := u.clocks (n ∈ (if u.seq.mode then [7457, 14913, 22371, 37281] else [7457, 14913, 22371, 29829]))
      (n ∈ (if u.seq.mode then [14913, 37281] else [14913, 29829]))
    u.sequencerTick = { (if restart && u.seq.mode then w.quarter.half else w) with seq := { u.seq with
      cycle := if restart ∨ n = (if u.seq.mode then 37282 else 29830) then 0 else n
      frameIrq := u.seq.frameIrq || (!u.seq.mode && !u.seq.irqInhibit && decide (29828 ≤ n ∧ n ≤ 29830))
      resetDelay := u.seq.resetDelay - 1 } } := by
  intro n restart w
  have hrestart : ∀ (v : Apu) (b : Bool) (q : FrameSeq),
      (if b then ({ v with seq := q } : Apu).quarter.half else { v with seq := q }) =
        { (if b then v.quarter.half else v) with seq := q } := by
    intro v b q
    cases b <;> rfl
  have hcycle : ∀ last, (if restart ∨ n = last then 0 else n) = if restart then 0 else if n = last then 0 else n := by
    intro last
    cases restart <;> simp
  cases hmode : u.seq.mode with
  | false =>
    have hsched : u.sequencerTick = (u.setFsCycle n).schedule4.delayedRestart := by
      simp only [Apu.sequencerTick, Apu.setFsCycle, hmode, Bool.false_eq_true, if_false]
      rfl
    have hw : w = u.clocks (n ∈ [7457, 14913, 22371, 29829]) (n ∈ [14913, 29829]) := by
      simp only [w, hmode, Bool.false_eq_true, if_false]
    rw [hsched, Apu.delayedRestart_eq, Apu.schedule4_eq]
    simp only [Apu.setFsCycle, Apu.clocks_withSeq, hmode, hw, hcycle, Bool.and_false, Bool.false_eq_true, if_false,
      Bool.not_false, Bool.true_and]
    rfl
  | true =>
    have hsched : u.sequencerTick = (u.setFsCycle n).schedule5.delayedRestart := by
      simp only [Apu.sequencerTick, Apu.setFsCycle, hmode, if_true]
      rfl
    have hw : w = u.clocks (n ∈ [7457, 14913, 22371, 37281]) (n ∈ [14913, 37281]) := by
      simp only [w, hmode, if_true]
    rw [hsched, Apu.delayedRestart_eq, Apu.schedule5_eq]
    simp only [Apu.setFsCycle, Apu.clocks_withSeq, hmode, hw, hcycle, Bool.and_true, if_true, Bool.not_true,
      Bool.false_and, Bool.or_false]
    rw [hrestart]

/-- After as many ticks as the delay counts, the sequencer has restarted (R546). -/
theorem Apu.sequencerTick_delay (k : Nat) (u : Apu) (h : u.seq.resetDelay = k + 1) :
    (Apu.sequencerTick^[k + 1] u).seq.cycle = 0 ∧ (Apu.sequencerTick^[k + 1] u).seq.resetDelay = 0 := by
  induction k generalizing u with
  | zero =>
    rw [Function.iterate_one, Apu.sequencerTick_eq]
    exact ⟨if_pos (Or.inl (decide_eq_true h)), Nat.sub_eq_zero_of_le h.le⟩
  | succ k ih =>
    rw [Function.iterate_succ_apply]
    apply ih
    rw [Apu.sequencerTick_eq]
    exact congrArg (· - 1) h

/-- Settles O57. -/
theorem frameSequencerRequests : Obligations.FrameSequencerRequests := by
  unfold Obligations.FrameSequencerRequests
  refine ⟨fun u => ?_, fun u => ?_, Apu.sequencerTick_eq, fun u h => ?_, fun s v => rfl⟩
  · simp only [Apu.quarter, Pulse.envelopeClock, Noise.envelopeClock, envelopeClock_fst, envelopeClock_snd,
      Triangle.linearClock_eq]
  · simp only [Apu.half, Pulse.half_eq, Triangle.lengthClock, Noise.lengthClock, lengthClock_eq, Pulse.sweepTarget_eq]
  · obtain ⟨k, hk⟩ : ∃ k, u.seq.resetDelay = k + 1 := ⟨u.seq.resetDelay - 1, by omega⟩
    rw [hk]
    exact Apu.sequencerTick_delay k u hk

end Sys2Proof.Machine
end

section
/-! The raster (R451, R453 to R455): the counters of one dot and of a whole frame, vertical blank, the frame hand-off. -/

namespace Sys2Proof.Machine

/-- The counters after a dot: the next dot, or the start of the next line (R453). -/
theorem ppuDot_counters (s : State) :
    let p := s.ppu
    let q := (ppuDot s).ppu
    if lastDot p (rendering p) ≤ p.dot then
      q.dot = 0 ∧ q.scanline = (nextLine p).scanline ∧ q.frame = (nextLine p).frame ∧ q.oddFrame = (nextLine p).oddFrame
    else q.dot = p.dot + 1 ∧ q.scanline = p.scanline ∧ q.frame = p.frame ∧ q.oddFrame = p.oddFrame := by
  intro p q
  have hp := pipelineOk_dotWork p.scanline p.dot (rendering p) s
  have hq : q = (advanceCounters (rendering p) (dotWork p.scanline p.dot (rendering p) s)).ppu := rfl
  generalize dotWork p.scanline p.dot (rendering p) s = u at hp hq
  have hlast : lastDot u.ppu (rendering p) = lastDot p (rendering p) := by
    simp only [lastDot, hp.scanline, hp.parity]
    rfl
  rw [hq, advanceCounters, hlast, hp.dot]
  split
  · simp only [nextLine, hp.scanline]
    split
    · exact ⟨rfl, rfl, congrArg (· + 1) hp.frame, congrArg not hp.parity⟩
    · exact ⟨rfl, rfl, hp.frame, hp.parity⟩
  · exact ⟨rfl, hp.scanline, hp.frame, hp.parity⟩

/-- The counters `k` dots after the start of the frame of `p` (R451): the position is `k`. -/
structure AtDot (p : Ppu) (k : Nat) (s : State) : Prop where
  scanline : s.ppu.scanline < 262
  dot : s.ppu.dot < 341
  place : 341 * s.ppu.scanline + s.ppu.dot = k
  frame : s.ppu.frame = p.frame
  parity : s.ppu.oddFrame = p.oddFrame
  rendering : rendering s.ppu = rendering p

/-- The dots of a frame: one fewer on an odd frame with rendering enabled (R453). -/
def frameDots (p : Ppu) : Nat := 341 * 262 - (if p.oddFrame && rendering p then 1 else 0)

theorem frameDots_bounds (p : Ppu) : 341 * 261 + 340 ≤ frameDots p ∧ frameDots p ≤ 341 * 262 := by
  unfold frameDots
  split <;> omega

/-- The last dot of a line: that of the frame on line 261, else 340. -/
theorem AtDot.lastDot_eq {p : Ppu} {k : Nat} {s : State} (h : AtDot p k s) :
    (s.ppu.scanline = 261 → 341 * 261 + lastDot s.ppu (Machine.rendering s.ppu) + 1 = frameDots p) ∧
    (s.ppu.scanline ≠ 261 → lastDot s.ppu (Machine.rendering s.ppu) = 340) := by
  rw [lastDot, h.rendering, h.parity, frameDots]
  constructor
  · intro hline
    cases p.oddFrame <;> cases Machine.rendering p <;> simp [hline]
  · intro hline
    rw [if_neg (by tauto)]

/-- Before the last dot of the frame the next dot has the next position. -/
theorem AtDot.next {p : Ppu} {k : Nat} {s : State} (h : AtDot p k s) (hk : k + 1 < frameDots p) :
    AtDot p (k + 1) (ppuDot s) := by
  have hc := ppuDot_counters s
  have hr := (rendering_ppuDot s).trans h.rendering
  have hbounds := frameDots_bounds p
  obtain ⟨hlast, hlast'⟩ := h.lastDot_eq
  obtain ⟨hline, hdot, hplace, hframe, hparity, -⟩ := h
  dsimp only at hc
  split at hc
  case isTrue hend =>
    have h261 : s.ppu.scanline ≠ 261 := fun h261 => by
      have := hlast h261
      omega
    have := hlast' h261
    simp only [nextLine, if_neg h261] at hc
    obtain ⟨hd, hs, hf, ho⟩ := hc
    exact ⟨by omega, by omega, by omega, hf.trans hframe, ho.trans hparity, hr⟩
  case isFalse hend =>
    obtain ⟨hd, hs, hf, ho⟩ := hc
    have hroom : s.ppu.dot < 340 := by
      by_cases h261 : s.ppu.scanline = 261
      · omega
      · have := hlast' h261
        omega
    exact ⟨by omega, by omega, by omega, hf.trans hframe, ho.trans hparity, hr⟩

/-- The last dot of a frame is followed by the first of the next (R453). -/
theorem AtDot.nextFrame {p : Ppu} {k : Nat} {s : State} (h : AtDot p k s) (hk : k + 1 = frameDots p) :
    (ppuDot s).ppu.scanline = 0 ∧ (ppuDot s).ppu.dot = 0 ∧ (ppuDot s).ppu.frame = p.frame + 1 ∧
    (ppuDot s).ppu.oddFrame = !p.oddFrame := by
  have hc := ppuDot_counters s
  have hbounds := frameDots_bounds p
  obtain ⟨hlast, -⟩ := h.lastDot_eq
  obtain ⟨hline, hdot, hplace, hframe, hparity, -⟩ := h
  have h261 : s.ppu.scanline = 261 := by omega
  have := hlast h261
  dsimp only at hc
  rw [if_pos (by omega)] at hc
  simp only [nextLine, if_pos h261] at hc
  obtain ⟨hd, hs, hf, ho⟩ := hc
  exact ⟨hs, hd, hf.trans (congrArg (· + 1) hframe), ho.trans (congrArg not hparity)⟩

/-- Settles O52. -/
theorem aFrameIsAFixedNumberOfDots : Obligations.AFrameIsAFixedNumberOfDots := by
  unfold Obligations.AFrameIsAFixedNumberOfDots
  intro s hok hs hd n
  have hn : n = frameDots s.ppu := rfl
  have hbounds := frameDots_bounds s.ppu
  have hat : ∀ k < n, AtDot s.ppu k (ppuDot^[k] s) := by
    intro k
    induction k with
    | zero =>
      intro _
      exact ⟨by simp [hs], by simp [hd], by simp [hs, hd], rfl, rfl, rfl⟩
    | succ k ih =>
      intro hk
      rw [Function.iterate_succ_apply']
      exact (ih (by omega)).next (hn ▸ hk)
  refine ⟨fun k hk => ⟨(hat k hk).place, (hat k hk).frame⟩, ?_⟩
  obtain ⟨m, hm⟩ : ∃ m, n = m + 1 := ⟨n - 1, by omega⟩
  rw [hm, Function.iterate_succ_apply']
  exact (hat m (by omega)).nextFrame (hm.symm.trans hn)

/-! ### Vertical blank and the hand-off -/

/-- The cells that only part A of a dot changes: vertical blank and the frame handed over. -/
def Ppu.handOff (p : Ppu) : Bool × Cells 6 × Bool := (p.vblank, p.frameOut, p.frameReady)

theorem handOff_whenDo {b : Bool} {f : State → State} {t : State} {h : Bool × Cells 6 × Bool} (ht : t.ppu.handOff = h)
    (hf : ∀ u : State, (f u).ppu.handOff = u.ppu.handOff) : (whenDo b f t).ppu.handOff = h := by
  unfold whenDo
  split
  · exact (hf t).trans ht
  · exact ht

theorem handOff_fetchStep (d : Nat) (s : State) : (backgroundFetchStep d s).ppu.handOff = s.ppu.handOff := by
  unfold backgroundFetchStep
  split <;> rfl

theorem handOff_dotFetch (line d : Nat) (s : State) : (dotFetch line d s).ppu.handOff = s.ppu.handOff := by
  unfold dotFetch
  refine handOff_whenDo ?_ fun _ => rfl
  refine handOff_whenDo ?_ fun _ => rfl
  refine handOff_whenDo ?_ fun _ => rfl
  refine handOff_whenDo ?_ fun _ => rfl
  refine handOff_whenDo ?_ fun _ => rfl
  refine handOff_whenDo ?_ fun _ => rfl
  refine handOff_whenDo ?_ fun _ => rfl
  refine handOff_whenDo ?_ fun _ => rfl
  refine handOff_whenDo ?_ (handOff_fetchStep d)
  refine handOff_whenDo ?_ fun _ => rfl
  exact handOff_whenDo rfl fun _ => rfl

theorem handOff_advance (re : Bool) (s : State) : (advanceCounters re s).ppu.handOff = s.ppu.handOff := by
  unfold advanceCounters nextLine
  split
  · dsimp only
    split <;> rfl
  · rfl

/-- Only part A of a dot changes vertical blank and hands a frame over (R452, R454, R455). -/
theorem handOff_ppuDot (s : State) : (ppuDot s).ppu.handOff = (dotFlags s.ppu).handOff := by
  rw [ppuDot, handOff_advance, dotWork]
  exact handOff_whenDo (handOff_whenDo rfl (handOff_dotFetch _ _)) fun _ => rfl

/-- The pre-render line's dot 1 fetches a name-table byte and no more (R452). -/
theorem dotFetch_preRender (s : State) : dotFetch 261 1 s = backgroundFetchStep 1 s := by
  simp [dotFetch, whenDo]

/-- The two sprite flags after (261, 1) (R454). -/
theorem spriteFlags_ppuDot {s : State} (hline : s.ppu.scanline = 261) (hdot : s.ppu.dot = 1) :
    (ppuDot s).ppu.spr0Hit = false ∧ (ppuDot s).ppu.sprOverflow = false := by
  have hflags : dotFlags s.ppu = { s.ppu with
      vblank := false, spr0Hit := false, sprOverflow := false, frameOut := s.ppu.pixels, frameReady := true } := by
    rw [dotFlags, if_neg (by omega), if_pos ⟨hline, hdot⟩]
  have hwork : (dotWork 261 1 (rendering s.ppu) s).ppu.spr0Hit = false ∧
      (dotWork 261 1 (rendering s.ppu) s).ppu.sprOverflow = false := by
    have hpixel : dotWork 261 1 (rendering s.ppu) s =
        whenDo (rendering s.ppu) (backgroundFetchStep 1) (onPpu dotFlags s) := by
      simp [dotWork, whenDo, dotFetch_preRender]
    rw [hpixel, onPpu, hflags, whenDo]
    split <;> exact ⟨rfl, rfl⟩
  rw [ppuDot, hline, hdot, advanceCounters, nextLine]
  split
  · split <;> exact hwork
  · exact hwork

/-- Settles O53. -/
theorem verticalBlankAndHandOff : Obligations.VerticalBlankAndHandOff := by
  unfold Obligations.VerticalBlankAndHandOff
  intro s
  have h := handOff_ppuDot s
  simp only [Ppu.handOff, Prod.mk.injEq] at h
  obtain ⟨hvblank, hout, hready⟩ := h
  rw [hvblank, hout, hready]
  refine ⟨?_, fun hline hdot => ?_, fun hno => ?_⟩
  · unfold dotFlags
    split_ifs <;> rfl
  · obtain ⟨hhit, hover⟩ := spriteFlags_ppuDot hline hdot
    rw [dotFlags, if_neg (by omega), if_pos ⟨hline, hdot⟩]
    exact ⟨hhit, hover, rfl, rfl⟩
  · unfold dotFlags
    rw [if_neg hno]
    split <;> exact ⟨rfl, rfl⟩

end Sys2Proof.Machine
end

section
/-! Pixel output (R459, R460): the pixels of the two layers as numbers, the palette entry they select, and the sprite-zero
flag. -/

namespace Sys2Proof.Machine

theorem twoBits_toNat (hi lo : Bool) : (twoBits hi lo).toNat = 2 * hi.toNat + lo.toNat := by
  cases hi <;> cases lo <;> rfl

/-- Sprites are shown at column `x` (R459). -/
def spritesShown (p : Ppu) (x : Nat) : Prop := p.mask.getLsbD 4 = true ∧ (8 ≤ x ∨ p.mask.getLsbD 2 = true)

/-- The number of the background pixel at column `x`, 0 where it is hidden. -/
def backgroundNumber (p : Ppu) (x : Nat) : Nat :=
  if p.mask.getLsbD 3 ∧ (8 ≤ x ∨ p.mask.getLsbD 1) then
    2 * (p.bgHi.getLsbD (15 - p.fineX.toNat)).toNat + (p.bgLo.getLsbD (15 - p.fineX.toNat)).toNat
  else 0

/-- The number of a unit's pixel at column `x`, 0 where it is hidden or outside its eight columns. -/
def spriteNumber (p : Ppu) (x : Nat) (u : SpriteUnit) : Nat :=
  if p.mask.getLsbD 4 ∧ (8 ≤ x ∨ p.mask.getLsbD 2) ∧ u.x.toNat ≤ x ∧ x ≤ u.x.toNat + 7 then
    2 * (u.hi.getLsbD (u.x.toNat + 7 - x)).toNat + (u.lo.getLsbD (u.x.toNat + 7 - x)).toNat
  else 0

theorem backgroundPixel_fst (p : Ppu) (x : Nat) : (backgroundPixel p x).1.toNat = backgroundNumber p x := by
  unfold backgroundPixel backgroundNumber
  split
  · exact twoBits_toNat _ _
  · rfl

/-- The palette of an opaque background pixel. -/
theorem backgroundPixel_snd {p : Ppu} {x : Nat} (h : backgroundNumber p x ≠ 0) : (backgroundPixel p x).2.toNat =
    2 * (p.atHi.getLsbD (15 - p.fineX.toNat)).toNat + (p.atLo.getLsbD (15 - p.fineX.toNat)).toNat := by
  unfold backgroundNumber at h
  unfold backgroundPixel
  split at h
  · next hshown =>
    rw [if_pos hshown]
    exact twoBits_toNat _ _
  · exact absurd rfl h

theorem SpriteUnit.pixel_toNat (u : SpriteUnit) (x : Nat) : (u.pixel x).toNat =
    if u.x.toNat ≤ x ∧ x ≤ u.x.toNat + 7 then
      2 * (u.hi.getLsbD (u.x.toNat + 7 - x)).toNat + (u.lo.getLsbD (u.x.toNat + 7 - x)).toNat
    else 0 := by
  unfold SpriteUnit.pixel
  by_cases h : u.x.toNat ≤ x ∧ x ≤ u.x.toNat + 7
  · rw [if_pos (by omega), if_pos h, twoBits_toNat, show 7 - (x - u.x.toNat) = u.x.toNat + 7 - x by omega]
  · rw [if_neg (by omega), if_neg h]
    rfl

theorem spriteNumber_of_shown {p : Ppu} {x : Nat} (h : spritesShown p x) (u : SpriteUnit) :
    spriteNumber p x u = (u.pixel x).toNat := by
  obtain ⟨h4, h2⟩ := h
  simp only [spriteNumber, SpriteUnit.pixel_toNat, h4, h2, true_and]

theorem spriteNumber_of_hidden {p : Ppu} {x : Nat} (h : ¬spritesShown p x) (u : SpriteUnit) : spriteNumber p x u = 0 :=
  if_neg fun hs => h ⟨hs.1, hs.2.1⟩

/-- The winning unit is the first with an opaque pixel (R459). -/
theorem spriteAt_eq (p : Ppu) (x : Nat) : spriteAt p x = p.sprites.find? fun u => spriteNumber p x u != 0 := by
  unfold spriteAt
  by_cases h : spritesShown p x
  · have hsame : (fun u : SpriteUnit => u.pixel x != 0) = fun u => spriteNumber p x u != 0 := by
      funext u
      rw [spriteNumber_of_shown h, Bool.eq_iff_iff, bne_iff_ne, bne_iff_ne, ← toNat_pos_iff_ne_zero,
        Nat.pos_iff_ne_zero]
    rw [← hsame]
    exact if_pos h
  · have hnone : p.sprites.find? (fun u => spriteNumber p x u != 0) = none :=
      List.find?_eq_none.mpr fun u _ => by simp [spriteNumber_of_hidden h]
    rw [hnone]
    exact if_neg h

/-- The palette entry that the two layers select: a transparent sprite pixel shows the background, an opaque one is
hidden only by its own priority behind an opaque background (R459). -/
theorem layerAddr_eq (bgPx bgPal spPx spPal : BitVec 2) (behind : Bool) : layerAddr bgPx bgPal spPx spPal behind =
    if spPx = 0 then (if bgPx.toNat = 0 then 0 else 4 * bgPal.toNat + bgPx.toNat)
    else if bgPx.toNat ≠ 0 ∧ behind then 4 * bgPal.toNat + bgPx.toNat
    else 16 + 4 * spPal.toNat + spPx.toNat := by
  have hbg : bgPx.toNat = 0 ↔ bgPx = 0 := by rw [BitVec.toNat_eq]; rfl
  have hfour : (2 : Nat) ^ 2 = 4 := rfl
  simp only [layerAddr, toNat_append_eq, hfour, ← Nat.add_assoc, ne_eq, hbg]
  by_cases hs : spPx = 0
  · by_cases hb : bgPx = 0
    · rw [if_pos ⟨hb, hs⟩, if_pos hs, if_pos hb]
    · rw [if_neg (fun h => hb h.1), if_neg hb, if_pos hs, if_pos hs, if_neg hb]
  · rw [if_neg (fun h => hs h.2), if_neg hs, if_neg hs]
    by_cases hb : bgPx = 0
    · rw [if_pos hb, if_neg (fun h => h.1 hb)]
    · rw [if_neg hb]
      exact if_congr ⟨fun h => ⟨hb, h⟩, And.right⟩ rfl rfl

/-- No entry that the layers select is one of the four aliases. -/
theorem palIndex_layerAddr (bgPx bgPal spPx spPal : BitVec 2) (behind : Bool) :
    palIndex (layerAddr bgPx bgPal spPx spPal behind) = layerAddr bgPx bgPal spPx spPal behind := by
  have hs : spPx ≠ 0 → spPx.toNat ≠ 0 := fun h h0 => h (by rw [BitVec.toNat_eq]; exact h0)
  have hbound := bgPx.isLt
  have hbound' := bgPal.isLt
  have hbound'' := spPx.isLt
  rw [layerAddr_eq, palIndex]
  split_ifs <;> first | rfl | (have := hs ‹_›; omega) | omega

/-- The palette entry of column `x` from the two numbers and the winning unit (R459). -/
def pixelEntry (p : Ppu) (x : Nat) : Nat :=
  let bgPx := backgroundNumber p x
  let bgPal := 2 * (p.atHi.getLsbD (15 - p.fineX.toNat)).toNat + (p.atLo.getLsbD (15 - p.fineX.toNat)).toNat
  match p.sprites.find? fun u => spriteNumber p x u != 0 with
  | none => if bgPx = 0 then 0 else 4 * bgPal + bgPx
  | some u =>
    if bgPx ≠ 0 ∧ u.attr.getLsbD 5 then 4 * bgPal + bgPx else 16 + 4 * (u.attr.toNat % 4) + spriteNumber p x u

/-- A winning unit is one of the eight, shown, and opaque at its column. -/
theorem winner_spec {p : Ppu} {x : Nat} {u : SpriteUnit}
    (h : (p.sprites.find? fun u => spriteNumber p x u != 0) = some u) :
    u ∈ p.sprites ∧ spritesShown p x ∧ u.x.toNat ≤ x ∧ x ≤ u.x.toNat + 7 ∧ u.pixel x ≠ 0 := by
  have hopaque : spriteNumber p x u ≠ 0 := by simpa using List.find?_some h
  have hrange : (p.mask.getLsbD 4 ∧ (8 ≤ x ∨ p.mask.getLsbD 2) ∧ u.x.toNat ≤ x ∧ x ≤ u.x.toNat + 7) := by
    by_contra hno
    exact hopaque (if_neg hno)
  obtain ⟨h4, h2, hleft, hright⟩ := hrange
  have hshown : spritesShown p x := ⟨h4, h2⟩
  refine ⟨List.mem_of_find?_eq_some h, hshown, hleft, hright, ?_⟩
  rw [← toNat_pos_iff_ne_zero, ← spriteNumber_of_shown hshown]
  exact Nat.pos_of_ne_zero hopaque

/-- The palette entry of the model's own pixels and units. -/
theorem layerAddr_pixels (p : Ppu) (x : Nat) :
    layerAddr (backgroundPixel p x).1 (backgroundPixel p x).2
      (if (spriteAt p x).isSome then ((spriteAt p x).getD .empty).pixel x else 0)
      (((spriteAt p x).getD .empty).attr.extractLsb' 0 2) (((spriteAt p x).getD .empty).attr.getLsbD 5) =
    pixelEntry p x := by
  have hbackground : backgroundNumber p x ≠ 0 → (backgroundPixel p x).2.toNat =
      2 * (p.atHi.getLsbD (15 - p.fineX.toNat)).toNat + (p.atLo.getLsbD (15 - p.fineX.toNat)).toNat := backgroundPixel_snd
  rw [layerAddr_eq, backgroundPixel_fst, pixelEntry, spriteAt_eq]
  cases hfront : p.sprites.find? fun u => spriteNumber p x u != 0 with
  | none =>
    simp only [Option.isSome_none, Bool.false_eq_true, if_false, if_true]
    split
    · rfl
    · next hb => rw [hbackground hb]
  | some u =>
    obtain ⟨-, hshown, -, -, hopaque⟩ := winner_spec hfront
    have hattr : (u.attr.extractLsb' 0 2).toNat = u.attr.toNat % 4 := by simp
    simp only [Option.isSome_some, if_true, Option.getD_some]
    rw [if_neg hopaque, hattr, spriteNumber_of_shown hshown]
    split
    · next hb => rw [hbackground hb.1]
    · rfl

theorem palIndex_pixelEntry (p : Ppu) (x : Nat) : palIndex (pixelEntry p x) = pixelEntry p x := by
  rw [← layerAddr_pixels, palIndex_layerAddr]

/-- One dot's pixel (R459, R460): its own cell, and the sprite-zero flag. -/
theorem outputPixel_eq (p : Ppu) (x y : Nat) :
    let front := p.sprites.find? fun u => spriteNumber p x u != 0
    let colour := Cells.read p.palette (pixelEntry p x)
    outputPixel x y p = { p with
      spr0Hit := p.spr0Hit || (backgroundNumber p x != 0 && (front.any fun u => u.isZero) && x != 255)
      pixels := Cells.write p.pixels (256 * y + x) (if p.mask.getLsbD 0 then colour &&& 0x30 else colour) } := by
  intro front colour
  have hbg : ((backgroundPixel p x).1 != 0) = (backgroundNumber p x != 0) := by
    rw [Bool.eq_iff_iff, bne_iff_ne, bne_iff_ne, ← toNat_pos_iff_ne_zero, backgroundPixel_fst, Nat.pos_iff_ne_zero]
  have hfront : ((if (spriteAt p x).isSome then ((spriteAt p x).getD .empty).pixel x else 0) != 0 &&
      ((spriteAt p x).getD .empty).isZero) = front.any fun u => u.isZero := by
    rw [spriteAt_eq]
    cases h : p.sprites.find? fun u => spriteNumber p x u != 0 with
    | none => simp only [front, h]; rfl
    | some u =>
      have hopaque : (u.pixel x != 0) = true := bne_iff_ne.mpr (winner_spec h).2.2.2.2
      simp only [front, h, Option.isSome_some, if_true, Option.getD_some, Option.any_some, hopaque, Bool.true_and]
  have hflag : ((backgroundPixel p x).1 != 0 &&
      (if (spriteAt p x).isSome then ((spriteAt p x).getD .empty).pixel x else 0) != 0 &&
      ((spriteAt p x).getD .empty).isZero && x != 255) =
      (backgroundNumber p x != 0 && (front.any fun u => u.isZero) && x != 255) := by
    rw [hbg, ← hfront, Bool.and_assoc (backgroundNumber p x != 0)]
  simp only [outputPixel, layerAddr_pixels, palIndex_pixelEntry, hflag]
  rfl

/-- Settles O55. -/
theorem spriteZeroHitNeedsBothLayers : Obligations.SpriteZeroHitNeedsBothLayers := by
  unfold Obligations.SpriteZeroHitNeedsBothLayers
  intro p x y hok hx hy q k bgPx bgPal spPx front entry colour
  have hq : q = _ := outputPixel_eq p x y
  have hhit : q.spr0Hit = true ↔
      p.spr0Hit = true ∨ (bgPx ≠ 0 ∧ x ≠ 255 ∧ ∃ u, front = some u ∧ u.isZero = true) := by
    have hflag : q.spr0Hit = (p.spr0Hit || (bgPx != 0 && (front.any fun u => u.isZero) && x != 255)) := by
      rw [hq]
      rfl
    rw [hflag, Bool.or_eq_true, Bool.and_eq_true, Bool.and_eq_true, bne_iff_ne, bne_iff_ne, Option.any_eq_true]
    tauto
  refine ⟨fun j => ?_, ?_, hhit, fun hold hnew => ?_⟩
  · rw [hq]
    exact Cells.read_write hok.pixels.1 _ _ _
  · rw [hq]
  · obtain hyes | ⟨hbg, h255, u, hu, hzero⟩ := hhit.mp hnew
    · rw [hold] at hyes
      contradiction
    · obtain ⟨hmem, ⟨h4, h2⟩, hleft, hright, -⟩ := winner_spec hu
      have hshown : p.mask.getLsbD 3 ∧ (8 ≤ x ∨ p.mask.getLsbD 1) := by
        by_contra hno
        exact hbg (if_neg hno)
      refine ⟨h255, hshown.1, h4, fun h8 => ⟨?_, ?_⟩, u, hmem, hzero, hleft, hright⟩
      · exact hshown.2.resolve_left (by omega)
      · exact h2.resolve_left (by omega)

end Sys2Proof.Machine
end

section
/-! Sprite evaluation (R471): the search as a filter of the object numbers, of which it copies the first eight. -/

namespace Sys2Proof.Machine

/-- What a store reads after a run of writes. -/
theorem Cells.read_writeList {m : Memory} (hm : Cells.wf (width := 8) m) (k : Nat) (vs : List Byte) (j : Nat) :
    Cells.read (Cells.writeList m k vs) j =
      if k ≤ j ∧ j < k + vs.length then vs.getD (j - k) 0x00 else Cells.read m j := by
  induction vs generalizing m k with
  | nil => rw [if_neg (by simp)]; rfl
  | cons v vs ih =>
    rw [Cells.writeList, ih (Cells.wf_write k v hm), List.length_cons, Cells.read_write hm]
    rcases Nat.lt_trichotomy j k with hlt | rfl | hgt
    · rw [if_neg (by omega), if_neg (by omega), if_neg (by omega)]
    · rw [if_neg (by omega), if_pos rfl, if_pos (by omega), Nat.sub_self]
      rfl
    · by_cases hin : j < k + (vs.length + 1)
      · rw [if_pos (by omega), if_pos (by omega), show j - k = j - (k + 1) + 1 by omega]
        rfl
      · rw [if_neg (by omega), if_neg (by omega), if_neg (by omega)]

/-- Whether an object shows on a line, by its Y byte (R471). -/
def objectHit (oam : Memory) (line h n : Nat) : Bool :=
  (Cells.read oam (4 * n)).toNat ≤ line && line < (Cells.read oam (4 * n)).toNat + h

theorem inRange_oamRead (oam : Memory) (line h n : Nat) :
    inRange line h (oamRead oam (4 * n)) = objectHit oam line h n := by
  have hy : oamRead oam (4 * n) = Cells.read oam (4 * n) := if_neg (by omega)
  rw [hy, inRange, objectHit, Bool.eq_iff_iff]
  simp only [Bool.and_eq_true, decide_eq_true_iff]
  omega

/-- Objects copied one after another into the secondary memory, from place `count` on (R471). -/
def copyObjects (oam : Memory) : Memory → Nat → List Nat → Memory
  | m, _, [] => m
  | m, count, o :: os =>
    copyObjects oam (Cells.writeList m (4 * count) ((List.range 4).map fun k => oamRead oam (4 * o + k))) (count + 1) os

/-- The objects from number `n` on that show on a line. -/
def hitsFrom (oam : Memory) (line h n fuel : Nat) : List Nat := (List.range' n fuel).filter (objectHit oam line h)

theorem hitsFrom_succ (oam : Memory) (line h n fuel : Nat) : hitsFrom oam line h n (fuel + 1) =
    if objectHit oam line h n then n :: hitsFrom oam line h (n + 1) fuel else hitsFrom oam line h (n + 1) fuel := by
  rw [hitsFrom, List.range'_succ, List.filter_cons]
  rfl

/-- An object in range is copied where there is room. -/
theorem findSprites_hit {oam : Memory} {line h n count : Nat} (fuel : Nat) (m : Memory) (has0 : Bool) (hroom : count < 8)
    (hhit : objectHit oam line h n = true) : findSprites oam line h (fuel + 1) n m count has0 =
      findSprites oam line h fuel (n + 1)
        (Cells.writeList m (4 * count) ((List.range 4).map fun k => oamRead oam (4 * n + k))) (count + 1)
        (has0 || n == 0) := by
  rw [findSprites, if_pos hroom, inRange_oamRead, if_pos hhit]

theorem findSprites_miss {oam : Memory} {line h n count : Nat} (fuel : Nat) (m : Memory) (has0 : Bool)
    (hroom : count < 8) (hhit : ¬objectHit oam line h n = true) :
    findSprites oam line h (fuel + 1) n m count has0 = findSprites oam line h fuel (n + 1) m count has0 := by
  rw [findSprites, if_pos hroom, inRange_oamRead, if_neg hhit]

/-- The search copies the first of the objects in range, as many as there is room for; where there is room for all it
reaches the last object. -/
theorem findSprites_spec (oam : Memory) (line h fuel n : Nat) (m : Memory) {count : Nat} (has0 : Bool) (hc : count ≤ 8) :
    (findSprites oam line h fuel n m count has0).1 =
      copyObjects oam m count ((hitsFrom oam line h n fuel).take (8 - count)) ∧
    (findSprites oam line h fuel n m count has0).2.1 =
      count + ((hitsFrom oam line h n fuel).take (8 - count)).length ∧
    (findSprites oam line h fuel n m count has0).2.2.1 =
      (has0 || decide (0 ∈ (hitsFrom oam line h n fuel).take (8 - count))) ∧
    (count + (hitsFrom oam line h n fuel).length < 8 → (findSprites oam line h fuel n m count has0).2.2.2 = n + fuel) := by
  induction fuel generalizing n m count has0 with
  | zero => simp [findSprites, hitsFrom, copyObjects]
  | succ fuel ih =>
    by_cases hroom : count < 8
    · by_cases hhit : objectHit oam line h n = true
      · obtain ⟨hm, hcount, hzero, hreach⟩ := ih (n + 1)
          (Cells.writeList m (4 * count) ((List.range 4).map fun k => oamRead oam (4 * n + k))) (count := count + 1)
          (has0 || n == 0) (by omega)
        rw [findSprites_hit fuel m has0 hroom hhit, hitsFrom_succ, if_pos hhit,
          show 8 - count = 8 - (count + 1) + 1 by omega, List.take_succ_cons]
        refine ⟨hm, hcount.trans ?_, hzero.trans ?_, fun hlen => ?_⟩
        · rw [List.length_cons]
          omega
        · simp [Bool.or_assoc, eq_comm (a := 0), Bool.beq_eq_decide_eq]
        · rw [List.length_cons] at hlen
          rw [hreach (by omega)]
          omega
      · obtain ⟨hm, hcount, hzero, hreach⟩ := ih (n + 1) m has0 hc
        rw [findSprites_miss fuel m has0 hroom hhit, hitsFrom_succ, if_neg hhit]
        exact ⟨hm, hcount, hzero, fun hlen => (hreach hlen).trans (by omega)⟩
    · have hfull : findSprites oam line h (fuel + 1) n m count has0 = (m, count, has0, n) := by
        rw [findSprites, if_neg hroom]
      rw [hfull, show 8 - count = 0 by omega, List.take_zero]
      exact ⟨rfl, rfl, by simp, fun hlen => by omega⟩

/-- The copied objects in their places, the cells before them as they were. -/
theorem read_copyObjects (oam : Memory) {m : Memory} (hm : Cells.wf (width := 8) m) (count : Nat) (os : List Nat) :
    (∀ j < 4 * count, Cells.read (copyObjects oam m count os) j = Cells.read m j) ∧
    ∀ k < os.length, ∀ j < 4, Cells.read (copyObjects oam m count os) (4 * (count + k) + j) =
      oamRead oam (4 * os.getD k 0 + j) := by
  induction os generalizing m count with
  | nil => exact ⟨fun _ _ => rfl, fun k hk => absurd hk (by simp)⟩
  | cons o os ih =>
    have hwrite := fun j => Cells.read_writeList hm (4 * count) ((List.range 4).map fun k => oamRead oam (4 * o + k)) j
    obtain ⟨hbefore, hplaces⟩ := ih (Cells.wf_writeList ((List.range 4).map fun k => oamRead oam (4 * o + k))
      (4 * count) hm) (count + 1)
    rw [copyObjects]
    refine ⟨fun j hj => ?_, fun k hk j hj => ?_⟩
    · rw [hbefore j (by omega), hwrite, if_neg (by omega)]
    · cases k with
      | zero =>
        rw [hbefore _ (by omega), hwrite, if_pos (by simp; omega)]
        have hplace : 4 * (count + 0) + j - 4 * count = j := by omega
        rw [hplace]
        simp [hj]
      | succ k =>
        rw [show 4 * (count + (k + 1)) + j = 4 * (count + 1 + k) + j by omega,
          hplaces k (by simpa using hk) j hj]
        rfl

/-- With no object left the overflow search finds none. -/
theorem overflowSearch_end (oam : Memory) (line h fuel m : Nat) : overflowSearch oam line h fuel 64 m = false := by
  cases fuel <;> rfl

/-- Object 0, where it shows, is the first of the objects in range. -/
theorem zero_mem_take_hits (oam : Memory) (line h : Nat) :
    0 ∈ (hitsFrom oam line h 0 64).take 8 ↔ 0 ∈ hitsFrom oam line h 0 64 := by
  refine ⟨List.mem_of_mem_take, fun h0 => ?_⟩
  rw [hitsFrom_succ] at h0 ⊢
  split
  · exact List.mem_cons_self
  · next hmiss =>
    rw [if_neg hmiss, hitsFrom, List.mem_filter, List.mem_range'_1] at h0
    omega

/-- Settles O54: what the search copies, read back, and its end where fewer than eight objects show. -/
theorem spriteEvaluationTakesTheFirstEight : Obligations.SpriteEvaluationTakesTheFirstEight := by
  unfold Obligations.SpriteEvaluationTakesTheFirstEight
  intro p line hline h hits q
  have hhits : hitsFrom p.oam line h 0 64 = hits := by
    rw [hitsFrom, ← List.range_eq_range']
    rfl
  obtain ⟨hm, hcount, hzero, hreach⟩ := findSprites_spec p.oam line h 64 0 oam2Cleared (count := 0) false (by decide)
  have hfirst := zero_mem_take_hits p.oam line h
  rw [hhits] at hm hcount hzero hreach hfirst
  have hlen : (hits.take 8).length = min 8 hits.length := List.length_take
  refine ⟨?_, ?_, fun hfew => ?_, fun k hk j hj => ?_⟩
  · exact hcount.trans (by rw [Nat.zero_add, Nat.sub_zero, hlen])
  · exact hzero.trans (by rw [Bool.false_or, Nat.sub_zero]; exact decide_eq_decide.mpr hfirst)
  · have hend := hreach (by omega)
    have hover : q.sprOverflow = (p.sprOverflow || overflowSearch p.oam line h 64
        (findSprites p.oam line h 64 0 oam2Cleared 0 false).2.2.2 0) := rfl
    rw [hover, hend, overflowSearch_end, Bool.or_false]
  · have hmem : q.oam2 = copyObjects p.oam oam2Cleared 0 (hits.take 8) := hm
    have hread := (read_copyObjects p.oam sized_oam2Cleared.1 0 (hits.take 8)).2 k (by omega) j hj
    have hobject : (hits.take 8).getD k 0 = hits.getD k 0 := by
      simp only [List.getD_eq_getElem?_getD, List.getElem?_take_of_lt (show k < 8 by omega)]
    rw [Nat.zero_add, hobject] at hread
    rw [hmem, hread, oamRead]
    exact if_congr (by omega) rfl rfl

end Sys2Proof.Machine
end

section
/-! `StepCycle()` (R621) and the scratch cells: every bus operation leaves them, so a cycle of an instruction is the same
cycle of `exec` beside them. -/

namespace Sys2Proof.Machine

/-- The scratch cells replaced. -/
def putMicro (m : Micro) (c : Cpu) : Cpu := { c with micro := m }

/-- A state with other scratch cells. -/
def withMicro (m : Micro) (s : State) : State := onCpu (putMicro m) s

theorem regOnly_putMicro (m : Micro) : RegOnly (putMicro m) := fun _ _ _ _ _ _ => rfl

section
variable (m : Micro) (s : State)

@[simp] theorem withMicro_micro : (withMicro m s).cpu.micro = m := rfl

@[simp] theorem withMicro_pc : (withMicro m s).cpu.pc = s.cpu.pc := rfl

@[simp] theorem withMicro_s : (withMicro m s).cpu.s = s.cpu.s := rfl

@[simp] theorem withMicro_x : (withMicro m s).cpu.x = s.cpu.x := rfl

@[simp] theorem withMicro_y : (withMicro m s).cpu.y = s.cpu.y := rfl

@[simp] theorem withMicro_tick : (withMicro m s).cpu.tick = s.cpu.tick := rfl

@[simp] theorem withMicro_cycles : (withMicro m s).cpu.cycles = s.cpu.cycles := rfl

@[simp] theorem withMicro_dmaPage : (withMicro m s).cpu.dmaPage = s.cpu.dmaPage := rfl

@[simp] theorem withMicro_chip : (withMicro m s).chip = s.chip := rfl

@[simp] theorem modeIndex_withMicro (md : Mode) : modeIndex md (withMicro m s).cpu = modeIndex md s.cpu := by
  cases md <;> rfl

@[simp] theorem onMicro_withMicro (f : Micro → Micro) : onMicro f (withMicro m s) = withMicro (f m) s := rfl

@[simp] theorem setCurOp_withMicro (k : CurOp) : setCurOp k (withMicro m s) = withMicro { m with curOp := k } s := rfl

@[simp] theorem rd_withMicro (a : Word) : rd (withMicro m s) a = ((rd s a).1, withMicro m (rd s a).2) :=
  rd_onCpu (regOnly_putMicro m) s a

@[simp] theorem wr_withMicro (a : Word) (v : Byte) : wr (withMicro m s) a v = withMicro m (wr s a v) :=
  wr_onCpu (regOnly_putMicro m) s a v

@[simp] theorem dummyRead_withMicro (a : Word) : dummyRead a (withMicro m s) = withMicro m (dummyRead a s) :=
  dummyRead_onCpu (regOnly_putMicro m) a s

@[simp] theorem readPc_withMicro : readPc (withMicro m s) = withMicro m (readPc s) := dummyRead_withMicro m s _

@[simp] theorem readStack_withMicro : readStack (withMicro m s) = withMicro m (readStack s) := dummyRead_withMicro m s _

theorem onCpu_withMicro {f : Cpu → Cpu} (hf : RegChange f) : onCpu f (withMicro m s) = withMicro m (onCpu f s) :=
  hf.onMicro (fun _ => m) s

theorem regChange_setPc (w : Word) : RegChange (setPc w) := fun _ _ _ _ _ _ _ => rfl

theorem regChange_setS (v : Byte) : RegChange (setS v) := fun _ _ _ _ _ _ _ => rfl

theorem regChange_setI (b : Bool) : RegChange (setI b) := fun _ _ _ _ _ _ _ => rfl

theorem regChange_unpackP (v : Byte) : RegChange (unpackP v) := fun _ _ _ _ _ _ _ => rfl

@[simp] theorem setPc_withMicro (w : Word) : onCpu (setPc w) (withMicro m s) = withMicro m (onCpu (setPc w) s) := rfl

@[simp] theorem setI_withMicro (b : Bool) : onCpu (setI b) (withMicro m s) = withMicro m (onCpu (setI b) s) := rfl

@[simp] theorem unpackP_withMicro (v : Byte) : onCpu (unpackP v) (withMicro m s) = withMicro m (onCpu (unpackP v) s) := rfl

@[simp] theorem fetch_withMicro : fetch (withMicro m s) = ((fetch s).1, withMicro m (fetch s).2) := by
  apply Prod.ext
  · rw [fetch_fst, fetch_fst, withMicro_pc, ← rd_fst, rd_withMicro, rd_fst]
  · rw [fetch_snd, fetch_snd, rd_withMicro, withMicro_pc, setPc_withMicro]

@[simp] theorem push_withMicro (v : Byte) : push v (withMicro m s) = withMicro m (push v s) := by
  rw [push_eq, push_eq, wr_withMicro, withMicro_s]
  exact onCpu_withMicro m _ (regChange_setS _)

@[simp] theorem pull_withMicro : pull (withMicro m s) = ((pull s).1, withMicro m (pull s).2) := by
  apply Prod.ext
  · rw [pull_fst, pull_fst]
    rfl
  · rw [pull_snd, pull_snd, rd_withMicro, withMicro_s]
    exact onCpu_withMicro m _ (regChange_setS _)

@[simp] theorem latchLo_withMicro (b : Byte) : latchLo (b, withMicro m s) = withMicro { m with lo := b } s := rfl

@[simp] theorem jumpTo_withMicro (b : Byte) :
    jumpTo (b, withMicro m s) = withMicro m (onCpu (setPc (wordOf b m.lo)) s) := rfl

end

theorem RegRead.withMicro {α : Type} {f : Cpu → α} (hf : RegRead f) (m : Micro) (s : State) :
    f (withMicro m s).cpu = f s.cpu :=
  hf s.cpu s.cpu.cycles s.cpu.tick s.cpu.nmiPrev s.cpu.nmiPending s.cpu.dmaPage m

/-! ### One cycle -/

/-- One bus cycle later: the two counters have moved by one, the chip is the same (R41, R622). -/
structure Ticks (s u : State) : Prop where
  tick : u.cpu.tick = s.cpu.tick + 1
  cycles : u.cpu.cycles = s.cpu.cycles + 1
  chip : u.chip = s.chip

theorem ticks_rd (s : State) (a : Word) : Ticks s (rd s a).2 := ⟨rd_tick s a, rd_cycles s a, rd_chip s a⟩

theorem ticks_wr (s : State) (a : Word) (v : Byte) : Ticks s (wr s a v) := ⟨wr_tick s a v, wr_cycles s a v, wr_chip s a v⟩

theorem ticks_dummyRead (a : Word) (s : State) : Ticks s (dummyRead a s) := ticks_rd s a

theorem ticks_readPc (s : State) : Ticks s (readPc s) := ticks_rd s _

theorem ticks_readStack (s : State) : Ticks s (readStack s) := ticks_rd s _

theorem Ticks.onCpu {s u : State} {f : Cpu → Cpu} (h : Ticks s u) (hf : RegChange f) : Ticks s (onCpu f u) :=
  ⟨(hf.regOnly.tick _).trans h.tick, (hf.cycles _).trans h.cycles, h.chip⟩

theorem ticks_fetch (s : State) : Ticks s (fetch s).2 := by
  rw [fetch_snd]
  exact (ticks_rd s _).onCpu (regChange_setPc _)

theorem ticks_push (v : Byte) (s : State) : Ticks s (push v s) := by
  rw [push_eq]
  exact (ticks_wr s _ v).onCpu (regChange_setS _)

theorem ticks_pull (s : State) : Ticks s (pull s).2 := by
  rw [pull_snd]
  exact (ticks_rd s _).onCpu (regChange_setS _)

/-! ### Cycle steps -/

/-- `t` is reached from `s` by `n` cycle steps, each one bus cycle. -/
inductive Walk (s : State) : Nat → State → Prop
  | start : Walk s 0 s
  | next {n : Nat} {t u : State} (h : Walk s n t) (hstep : stepCycle t = u) (ht : u.cpu.tick = t.cpu.tick + 1)
      (hc : u.cpu.cycles = t.cpu.cycles + 1) : Walk s (n + 1) u

theorem Walk.reach {s t : State} {n : Nat} (h : Walk s n t) :
    stepCycle^[n] s = t ∧ (∀ k ≤ n, (stepCycle^[k] s).cpu.tick = s.cpu.tick + k) ∧
    t.cpu.cycles = s.cpu.cycles + n := by
  induction h with
  | start =>
    refine ⟨rfl, fun k hk => ?_, rfl⟩
    obtain rfl := Nat.le_zero.mp hk
    rfl
  | @next n t u _ hstep ht hc ih =>
    obtain ⟨hreach, hticks, hcycles⟩ := ih
    have hlast : stepCycle^[n + 1] s = u := by rw [Function.iterate_succ_apply', hreach, hstep]
    refine ⟨hlast, fun k hk => ?_, by omega⟩
    rcases Nat.le_succ_iff.mp hk with hle | rfl
    · exact hticks k hle
    · have htick := hticks n (Nat.le_refl n)
      rw [hreach] at htick
      rw [hlast, ht, htick, Nat.add_assoc]

theorem Walk.tick {s t : State} {n : Nat} (h : Walk s n t) : t.cpu.tick = s.cpu.tick + n := by
  obtain ⟨hreach, hticks, -⟩ := h.reach
  rw [← hreach]
  exact hticks n (Nat.le_refl n)

/-- One cycle step more ends the step at `t`. -/
def Finishes (s t : State) : Prop :=
  ∃ n v, Walk s n v ∧ stepCycle v = t ∧ t.cpu.cycles = v.cpu.cycles + 1

/-- A walk that finishes gives the count of cycles and the counts of `tick` on the way (R621). -/
theorem Finishes.cycles {s t : State} (h : Finishes s t) (hs : s.cpu.tick = 0) :
    stepCycle^[t.cpu.cycles - s.cpu.cycles] s = t ∧
    ∀ k < t.cpu.cycles - s.cpu.cycles, (stepCycle^[k] s).cpu.tick = k := by
  obtain ⟨n, v, hwalk, hstep, hcycles⟩ := h
  obtain ⟨hreach, hticks, hcount⟩ := hwalk.reach
  have hn : t.cpu.cycles - s.cpu.cycles = n + 1 := by omega
  rw [hn]
  refine ⟨by rw [Function.iterate_succ_apply', hreach, hstep], fun k hk => ?_⟩
  rw [hticks k (by omega), hs, Nat.zero_add]

theorem stepCycle_of_tick {s : State} (h : s.cpu.tick ≠ 0) : stepCycle s = closeCycle (nextCycle s) := by
  rw [stepCycle, if_neg h]

/-- A cycle after which the list goes on. -/
theorem Walk.more {s t u : State} {m : Micro} {n : Nat} (h : Walk s n t) (hstep : stepCycle t = withMicro m u)
    (hu : Ticks t u) : Walk s (n + 1) (withMicro m u) := h.next hstep hu.tick hu.cycles

end Sys2Proof.Machine
end

section
/-! The cycles of one list, and its end: a list that asked for no DMA ends at the boundary, another passes to the DMA, which
ends there (R404, R108). -/

namespace Sys2Proof.Machine

/-- From `s`, `n` cycles of the list performed and the scratch cells `m`, the cycles of `next` end the list at `t`. -/
inductive Ends (next : State → CycleResult) : Nat → Micro → State → State → Prop
  | last {n : Nat} {m : Micro} {s t : State} (m' : Micro)
      (hnext : s.cpu.tick = n → next (withMicro m s) = .last (withMicro m' t)) (ht : Ticks s t) : Ends next n m s t
  | more {n : Nat} {m : Micro} {s u t : State} (m' : Micro)
      (hnext : s.cpu.tick = n → next (withMicro m s) = .more (withMicro m' u)) (hop : m'.curOp = m.curOp)
      (hu : Ticks s u) (k : Ends next (n + 1) m' u t) : Ends next n m s t

/-! ### Steps of a walk -/

theorem stepCycle_withMicro {m : Micro} {u : State} (h : u.cpu.tick ≠ 0) :
    stepCycle (withMicro m u) = closeCycle (nextCycle (withMicro m u)) := stepCycle_of_tick h

/-- A cycle after which the list goes on. -/
theorem Walk.cycle {s u v : State} {m m' : Micro} {n : Nat} (h : Walk s n (withMicro m u)) (htick : u.cpu.tick ≠ 0)
    (hnext : nextCycle (withMicro m u) = .more (withMicro m' v)) (hv : Ticks u v) :
    Walk s (n + 1) (withMicro m' v) := by
  refine h.next ?_ hv.tick hv.cycles
  rw [stepCycle_withMicro htick, hnext]
  rfl

theorem Ticks.tick_ne_zero {s t : State} (h : Ticks s t) : t.cpu.tick ≠ 0 := by
  have htick := h.tick
  omega

/-- A last cycle with no DMA waiting ends at the boundary (R404). -/
theorem Walk.finish {s u v t : State} {m : Micro} {n : Nat} (h : Walk s n u)
    (hstep : stepCycle u = closeCycle (.last (withMicro m t))) (hdma : t.cpu.dmaPage = none) (hv : Ticks v t)
    (hcycles : u.cpu.cycles = v.cpu.cycles) : Finishes s t.begun := by
  refine ⟨n, u, h, ?_, ?_⟩
  · have hclose : closeCycle (.last (withMicro m t)) = endStep (withMicro m t) := if_pos hdma
    rw [hstep, hclose]
    rfl
  · have hcount := hv.cycles
    change t.cpu.cycles = u.cpu.cycles + 1
    omega

/-! ### The attached DMA, cycle by cycle -/

/-- The scratch cells before the transfer of byte `i` (R108). -/
structure AtByte (page : Byte) (i : Nat) (m : Micro) : Prop where
  op : m.curOp = .dmaRead
  hi : m.hi = page
  lo : m.lo = BitVec.ofNat 8 i

theorem nextCycle_dmaRead {m : Micro} {page : Byte} {i : Nat} (hm : AtByte page i m) (s : State) :
    nextCycle (withMicro m s) = .more (withMicro
      { m with curOp := .dmaWrite, val := (rd s (wordOf page (BitVec.ofNat 8 i))).1 }
      (rd s (wordOf page (BitVec.ofNat 8 i))).2) := by
  rw [nextCycle, withMicro_micro, hm.op]
  simp only [dmaReadCycle, withMicro_micro, hm.hi, hm.lo, rd_withMicro, onMicro_withMicro, setCurOp_withMicro]

theorem nextCycle_dmaWrite {m : Micro} (hop : m.curOp = .dmaWrite) (s : State) :
    nextCycle (withMicro m s) = if m.lo = 0xFF then .last (withMicro m (wr s 0x2004 m.val))
      else .more (withMicro { m with curOp := .dmaRead, lo := m.lo + 1 } (wr s 0x2004 m.val)) := by
  rw [nextCycle, withMicro_micro, hop]
  simp only [dmaWriteCycle, withMicro_micro, wr_withMicro, onMicro_withMicro, setCurOp_withMicro]

theorem nextCycle_dmaAlign {m : Micro} (hop : m.curOp = .dmaAlign) (s : State) :
    nextCycle (withMicro m s) = .more (withMicro { m with curOp := .dmaRead } (readPc s)) := by
  rw [nextCycle, withMicro_micro, hop]
  simp only [readPc_withMicro, setCurOp_withMicro]

/-- The walk stands before the transfer of byte `i`, the bytes below it copied. -/
def BeforeByte (page : Byte) (s u : State) (i : Nat) : Prop :=
  ∃ n m, Walk s n (withMicro m ((List.range i).foldl (dmaByte page) u)) ∧ AtByte page i m ∧
    ((List.range i).foldl (dmaByte page) u).cpu.tick ≠ 0

theorem foldl_range_succ (page : Byte) (i : Nat) (u : State) :
    (List.range (i + 1)).foldl (dmaByte page) u = dmaByte page ((List.range i).foldl (dmaByte page) u) i := by
  rw [List.range_succ, List.foldl_append, List.foldl_cons, List.foldl_nil]

/-- The read cycle of byte `i`: the walk stands before its write. -/
theorem BeforeByte.read {page : Byte} {s u : State} {i : Nat} (h : BeforeByte page s u i) :
    ∃ n m t, Walk s n (withMicro m t) ∧ m.curOp = .dmaWrite ∧ m.hi = page ∧ m.lo = BitVec.ofNat 8 i ∧
      t.cpu.tick ≠ 0 ∧ wr t 0x2004 m.val = (List.range (i + 1)).foldl (dmaByte page) u := by
  obtain ⟨n, m, hwalk, hm, htick⟩ := h
  rw [foldl_range_succ, dmaByte]
  generalize (List.range i).foldl (dmaByte page) u = v at hwalk htick ⊢
  have hread := ticks_rd v (wordOf page (BitVec.ofNat 8 i))
  have hcycle := hwalk.cycle htick (nextCycle_dmaRead hm v) hread
  generalize rd v (wordOf page (BitVec.ofNat 8 i)) = r at hread hcycle ⊢
  exact ⟨_, _, _, hcycle, rfl, hm.hi, hm.lo, hread.tick_ne_zero, rfl⟩

theorem BeforeByte.next {page : Byte} {s u : State} {i : Nat} (h : BeforeByte page s u i) (hi : i < 255) :
    BeforeByte page s u (i + 1) := by
  obtain ⟨n, m, t, hwalk, hop, hhi, hlo, htick, hbyte⟩ := h.read
  have hmore : m.lo ≠ 0xFF := by
    rw [hlo]
    bv_omega
  have hwrite := ticks_wr t 0x2004 m.val
  have hcycle := hwalk.cycle htick ((nextCycle_dmaWrite hop t).trans (if_neg hmore)) hwrite
  rw [hbyte] at hcycle hwrite
  refine ⟨_, _, hcycle, ⟨rfl, hhi, ?_⟩, hwrite.tick_ne_zero⟩
  rw [BitVec.ofNat_add, ← hlo]
  rfl

theorem BeforeByte.upTo {page : Byte} {s u : State} (h : BeforeByte page s u 0) {i : Nat} (hi : i ≤ 255) :
    BeforeByte page s u i := by
  induction i with
  | zero => exact h
  | succ i ih => exact (ih (by omega)).next (by omega)

/-- The 256th write ends the DMA. -/
theorem BeforeByte.finish {page : Byte} {s u : State} {i : Nat} (h : BeforeByte page s u i) (hi : i = 255)
    (hdma : u.cpu.dmaPage = none) : Finishes s ((List.range (i + 1)).foldl (dmaByte page) u).begun := by
  obtain ⟨n, m, t, hwalk, hop, -, hlo, htick, hbyte⟩ := h.read
  have hlast : m.lo = 0xFF := hlo.trans (by rw [hi]; rfl)
  have hnone : ((List.range (i + 1)).foldl (dmaByte page) u).cpu.dmaPage = none := by
    rw [foldl_dmaByte_cpu]
    exact hdma
  have hwrite := ticks_wr t 0x2004 m.val
  have hstep : stepCycle (withMicro m t) = closeCycle (.last (withMicro m (wr t 0x2004 m.val))) := by
    rw [stepCycle_withMicro htick, nextCycle_dmaWrite hop, if_pos hlast]
  rw [hbyte] at hwrite hstep
  exact hwalk.finish hstep hnone hwrite rfl

theorem clearDma_pc (s : State) : (onCpu clearDma s).cpu.pc = s.cpu.pc := rfl

/-- After the wait cycle, and the alignment cycle where the count is odd, the first byte follows (R108). -/
theorem beforeByte_dmaStart {s t : State} {m : Micro} {n : Nat} {page : Byte} (h : Walk s n (withMicro m t))
    (hop : m.curOp = .dmaWait) (htick : t.cpu.tick ≠ 0) (hpage : t.cpu.dmaPage = some page) :
    BeforeByte page s (dmaStart t) 0 := by
  have hwait : nextCycle (withMicro m t) = .more (withMicro { m with
      hi := page, lo := 0x00, curOp := if (t.cpu.cycles + 1) % 2 = 1 then .dmaAlign else .dmaRead }
      (readPc (onCpu clearDma t))) := by
    have hclear : onCpu (fun c => { c with dmaPage := none }) (withMicro m t) = withMicro m (onCpu clearDma t) := rfl
    rw [nextCycle, withMicro_micro, hop]
    simp only [dmaWaitCycle, hclear, withMicro_dmaPage, hpage, readPc_withMicro, onMicro_withMicro, setCurOp_withMicro,
      withMicro_cycles, readPc_cycles]
    rfl
  have hticks : Ticks t (readPc (onCpu clearDma t)) := by
    obtain ⟨htick, hcycles, hchip⟩ := ticks_readPc (onCpu clearDma t)
    exact ⟨htick, hcycles, hchip⟩
  have hwalk := h.cycle htick hwait hticks
  rcases Nat.mod_two_eq_zero_or_one (t.cpu.cycles + 1) with hparity | hparity
  · have hstart : dmaStart t = readPc (onCpu clearDma t) := by
      rw [dmaStart, hparity]
      rfl
    rw [hparity] at hwalk
    rw [hstart]
    exact ⟨_, _, hwalk, ⟨rfl, rfl, rfl⟩, hticks.tick_ne_zero⟩
  · have hstart : dmaStart t = readPc (readPc (onCpu clearDma t)) := by
      rw [dmaStart, hparity, ← clearDma_pc, ← times_readPc]
      rfl
    rw [hparity] at hwalk
    rw [hstart]
    generalize readPc (onCpu clearDma t) = w at hwalk hticks
    have hcycle := hwalk.cycle hticks.tick_ne_zero (nextCycle_dmaAlign rfl w) (ticks_readPc w)
    exact ⟨_, _, hcycle, ⟨rfl, rfl, rfl⟩, (ticks_readPc w).tick_ne_zero⟩

theorem dmaStart_dmaPage (s : State) : (dmaStart s).cpu.dmaPage = none := by
  rw [dmaStart, (readOnly_afterReads _ _).cpu]
  rfl

/-- A last cycle, then the DMA it asked for, ends at the boundary (R404, R108). -/
theorem Walk.close {s u v t : State} {m : Micro} {n : Nat} (h : Walk s n u)
    (hstep : stepCycle u = closeCycle (.last (withMicro m t))) (hv : Ticks v t) (htick : u.cpu.tick = v.cpu.tick)
    (hcycles : u.cpu.cycles = v.cpu.cycles) : Finishes s (attachedDma t).begun := by
  cases hpage : t.cpu.dmaPage with
  | none =>
    have hattached : attachedDma t = t := by rw [attachedDma, hpage]
    rw [hattached]
    exact h.finish hstep hpage hv hcycles
  | some page =>
    have hclose : stepCycle u = withMicro { m with curOp := .dmaWait } t := by
      rw [hstep, closeCycle, if_neg (by rw [withMicro_dmaPage, hpage]; exact Option.some_ne_none page), setCurOp_withMicro]
    have hwalk : Walk s (n + 1) (withMicro { m with curOp := .dmaWait } t) :=
      h.next hclose (by rw [withMicro_tick, hv.tick, htick]) (by rw [withMicro_cycles, hv.cycles, hcycles])
    rw [attachedDma_of_page hpage, oamDma_eq]
    exact ((beforeByte_dmaStart hwalk rfl hv.tick_ne_zero hpage).upTo (Nat.le_refl 255)).finish rfl (dmaStart_dmaPage t)

/-- A list of cycles that ends, from the call that performs its cycle at `s`, finishes the step. -/
theorem Ends.finish {next : State → CycleResult} {op : CurOp} {chip : ChipParams}
    (hnext : ∀ m u, m.curOp = op → u.chip = chip → nextCycle (withMicro m u) = next (withMicro m u))
    {n : Nat} {m : Micro} {s t : State} (h : Ends next n m s t) {s0 v : State} {k : Nat} (hop : m.curOp = op)
    (hchip : s.chip = chip) (htick : s.cpu.tick = n) (hwalk : Walk s0 k v)
    (hstep : stepCycle v = closeCycle (next (withMicro m s)))
    (hvtick : v.cpu.tick = s.cpu.tick) (hvcycles : v.cpu.cycles = s.cpu.cycles) : Finishes s0 (attachedDma t).begun := by
  induction h generalizing v k with
  | last m' hlast ht => exact hwalk.close (hstep.trans (congrArg closeCycle (hlast htick))) ht hvtick hvcycles
  | @more n m s u t m' hmore hop' hu _ ih =>
    have hv : stepCycle v = withMicro m' u := hstep.trans (congrArg closeCycle (hmore htick))
    have hwalk' : Walk s0 (k + 1) (withMicro m' u) :=
      hwalk.next hv (by rw [withMicro_tick, hu.tick, hvtick]) (by rw [withMicro_cycles, hu.cycles, hvcycles])
    have hchip' : u.chip = chip := hu.chip.trans hchip
    refine ih (hop'.trans hop) hchip' (by rw [hu.tick, htick]) hwalk' ?_ rfl rfl
    rw [stepCycle_withMicro hu.tick_ne_zero, hnext m' u (hop'.trans hop) hchip']

end Sys2Proof.Machine
end

section
/-! The memory plans by cycle: the address cycles of every mode leave the address of `addressCycles` in the scratch cells
(R172 to R181), and the access cycles that follow are those of the instruction (R183 to R185, R259). -/

namespace Sys2Proof.Machine

theorem RegRead.rd {α : Type} {f : Cpu → α} (hf : RegRead f) (s : State) (a : Word) :
    f (rd s a).2.cpu = f s.cpu := by rw [rd_cpu, hf.spent]

theorem RegRead.wr {α : Type} {f : Cpu → α} (hf : RegRead f) (s : State) (a : Word) (v : Byte) :
    f (wr s a v).cpu = f s.cpu := by
  rw [wr_cpu, hf.spent, dmaAfter]
  split
  · exact hf s.cpu s.cpu.cycles s.cpu.tick s.cpu.nmiPrev s.cpu.nmiPending (some v) s.cpu.micro
  · rfl

theorem RegRead.addressCycles {α : Type} {f : Cpu → α} (hf : RegRead f) (k : Kind) (p : Place) (s : State) :
    f (addressCycles k p s).2.cpu = f s.cpu := by rw [(readOnly_addressCycles k p s).cpu, hf.spent]

theorem regRead_modeIndex (m : Mode) : RegRead (modeIndex m) := fun _ _ _ _ _ _ _ => by cases m <;> rfl

/-! ### Address cycles -/

theorem earlyCycle_withMicro (m : Micro) (index : Byte) (s : State) :
    earlyCycle index (withMicro m s) = withMicro m (dummyRead (earlyAddr (wordOf m.hi m.lo) index) s) :=
  dummyRead_withMicro m s _

section
variable {k : Kind} {m : Mode} {access : Nat → State → CycleResult} {n : Nat} {mu : Micro} {s t : State}

/-- An address cycle of a memory plan. -/
theorem Ends.address {u : State} (mu' : Micro) (hlen : n < addressLength k m mu.crossed)
    (hcycle : addressCycle m n (withMicro mu s) = withMicro mu' u) (hop : mu'.curOp = mu.curOp) (hu : Ticks s u)
    (h : Ends (memoryCycle k m access) (n + 1) mu' u t) : Ends (memoryCycle k m access) n mu s t := by
  refine .more mu' (fun htick => ?_) hop hu h
  rw [memoryCycle, withMicro_tick, htick, withMicro_micro]
  exact (if_pos hlen).trans (congrArg CycleResult.more hcycle)

/-- The access cycle `j`. -/
theorem memoryCycle_access {j : Nat} (htick : s.cpu.tick = addressLength k m mu.crossed + j) :
    memoryCycle k m access (withMicro mu s) = access j (withMicro mu s) := by
  rw [memoryCycle, withMicro_tick, htick, withMicro_micro]
  exact (if_neg (Nat.not_lt.mpr (Nat.le_add_right _ j))).trans (by rw [Nat.add_sub_cancel_left])

end

theorem addressCycle_one (m : Mode) (mu : Micro) (s : State) :
    addressCycle m 1 (withMicro mu s) =
      withMicro { mu with lo := atPc s, ea := zeroPage (atPc s) } (fetch s).2 := by
  have hcycle (u : State) : addressCycle m 1 u =
      onMicro (fun c => { c with lo := (fetch u).1, ea := zeroPage (fetch u).1 }) (fetch u).2 := by cases m <;> rfl
  rw [hcycle, fetch_withMicro, fetch_fst, onMicro_withMicro, atPc]

theorem addressCycle_abs_two (mu : Micro) (s : State) :
    addressCycle .abs 2 (withMicro mu s) =
      withMicro { mu with hi := atPc s, ea := wordOf (atPc s) mu.lo } (fetch s).2 := by
  have hcycle (u : State) : addressCycle .abs 2 u =
      onMicro (fun c => { c with hi := (fetch u).1, ea := wordOf (fetch u).1 c.lo }) (fetch u).2 := rfl
  rw [hcycle, fetch_withMicro, fetch_fst, onMicro_withMicro, atPc]

/-- The scratch cells with a latched base, address and crossing. -/
def indexedMicro (index lo hi : Byte) (m : Micro) : Micro :=
  { m with lo := lo, hi := hi, ea := indexedAddr (wordOf hi lo) index, crossed := crossesPage (wordOf hi lo) index }

theorem latchIndexed_withMicro (m : Micro) (index lo hi : Byte) (s : State) :
    latchIndexed index lo hi (withMicro m s) = withMicro (indexedMicro index lo hi m) s := rfl

theorem addressCycle_abx_two (mu : Micro) (s : State) :
    addressCycle .abx 2 (withMicro mu s) = withMicro (indexedMicro s.cpu.x mu.lo (atPc s) mu) (fetch s).2 := by
  have hcycle (u : State) :
    addressCycle .abx 2 u = latchIndexed u.cpu.x u.cpu.micro.lo (fetch u).1 (fetch u).2 := rfl
  rw [hcycle, fetch_withMicro, fetch_fst, latchIndexed_withMicro, withMicro_x, withMicro_micro, atPc]

theorem addressCycle_aby_two (mu : Micro) (s : State) :
    addressCycle .aby 2 (withMicro mu s) = withMicro (indexedMicro s.cpu.y mu.lo (atPc s) mu) (fetch s).2 := by
  have hcycle (u : State) :
    addressCycle .aby 2 u = latchIndexed u.cpu.y u.cpu.micro.lo (fetch u).1 (fetch u).2 := rfl
  rw [hcycle, fetch_withMicro, fetch_fst, latchIndexed_withMicro, withMicro_y, withMicro_micro, atPc]

/-- The second cycle of the zero-page indexed modes and of `(zp,X)`: the dummy read (R174, R175, R180). -/
theorem addressCycle_zeroPage_two {m : Mode} (hm : m = .zpx ∨ m = .zpy ∨ m = .izx) (mu : Micro) (s : State) :
    addressCycle m 2 (withMicro mu s) =
      withMicro { mu with ea := zeroPage (mu.lo + modeIndex m s.cpu) } (dummyRead mu.ea s) := by
  have hcycle (u : State) : addressCycle m 2 u =
      onMicro (fun c => { c with ea := zeroPage (c.lo + modeIndex m u.cpu) }) (dummyRead u.cpu.micro.ea u) := by
    rcases hm with rfl | rfl | rfl <;> rfl
  rw [hcycle, withMicro_micro, dummyRead_withMicro, onMicro_withMicro, modeIndex_withMicro]

theorem addressCycle_izx_three (mu : Micro) (s : State) :
    addressCycle .izx 3 (withMicro mu s) =
      withMicro { mu with lo := (rd s mu.ea).1, ea := zeroPage (loByte mu.ea + 1) } (rd s mu.ea).2 := by
  have hcycle (u : State) : addressCycle .izx 3 u =
      onMicro (fun c => { c with lo := (rd u u.cpu.micro.ea).1, ea := zeroPage (loByte c.ea + 1) })
        (rd u u.cpu.micro.ea).2 := rfl
  rw [hcycle, withMicro_micro, rd_withMicro, onMicro_withMicro]

theorem addressCycle_izx_four (mu : Micro) (s : State) :
    addressCycle .izx 4 (withMicro mu s) =
      withMicro { mu with hi := (rd s mu.ea).1, ea := wordOf (rd s mu.ea).1 mu.lo } (rd s mu.ea).2 := by
  have hcycle (u : State) : addressCycle .izx 4 u =
      onMicro (fun c => { c with hi := (rd u u.cpu.micro.ea).1, ea := wordOf (rd u u.cpu.micro.ea).1 c.lo })
        (rd u u.cpu.micro.ea).2 := rfl
  rw [hcycle, withMicro_micro, rd_withMicro, onMicro_withMicro]

theorem addressCycle_izy_two (mu : Micro) (s : State) :
    addressCycle .izy 2 (withMicro mu s) =
      withMicro { mu with lo := (rd s mu.ea).1, ea := zeroPage (mu.lo + 1) } (rd s mu.ea).2 := by
  have hcycle (u : State) : addressCycle .izy 2 u =
      onMicro (fun c => { c with lo := (rd u u.cpu.micro.ea).1, ea := zeroPage (c.lo + 1) })
        (rd u u.cpu.micro.ea).2 := rfl
  rw [hcycle, withMicro_micro, rd_withMicro, onMicro_withMicro]

theorem addressCycle_izy_three (mu : Micro) (s : State) :
    addressCycle .izy 3 (withMicro mu s) =
      withMicro (indexedMicro s.cpu.y mu.lo (rd s mu.ea).1 mu) (rd s mu.ea).2 := by
  have hcycle (u : State) : addressCycle .izy 3 u =
      latchIndexed u.cpu.y u.cpu.micro.lo (rd u u.cpu.micro.ea).1 (rd u u.cpu.micro.ea).2 := rfl
  rw [hcycle, withMicro_micro, rd_withMicro, latchIndexed_withMicro, withMicro_y]

/-! ### The address cycles of every mode -/

section
variable (k : Kind) (z : Byte) (w : Word) (s : State)

theorem addressCycles_zp : addressCycles k (.zp z) s = (zeroPage z, s) := rfl

theorem addressCycles_zpx : addressCycles k (.zpx z) s = (zeroPage (z + s.cpu.x), dummyRead (zeroPage z) s) := rfl

theorem addressCycles_zpy : addressCycles k (.zpy z) s = (zeroPage (z + s.cpu.y), dummyRead (zeroPage z) s) := rfl

theorem addressCycles_abs : addressCycles k (.abs w) s = (w, s) := rfl

theorem addressCycles_abx : addressCycles k (.abx w) s = (indexedAddr w s.cpu.x, indexCycle k w s.cpu.x s) := rfl

theorem addressCycles_aby : addressCycles k (.aby w) s = (indexedAddr w s.cpu.y, indexCycle k w s.cpu.y s) := rfl

theorem addressCycles_izx :
    addressCycles k (.izx z) s = readPointer (z + s.cpu.x) (dummyRead (zeroPage z) s) := rfl

theorem addressCycles_izy :
    addressCycles k (.izy z) s = (indexedAddr (readPointer z s).1 s.cpu.y,
      indexCycle k (readPointer z s).1 s.cpu.y (readPointer z s).2) := rfl

end

/-- The scratch cells hold the address that the address cycles of `p` form, and its base where it has a carrying index. -/
structure Addressed (k : Kind) (p : Place) (s : State) (mu : Micro) : Prop where
  ea   : mu.ea = (addressCycles k p s).1
  base : (indexOf p s.cpu).isSome → wordOf mu.hi mu.lo = (baseOf p s).1

section
variable {k : Kind} {m : Mode} {access : Nat → State → CycleResult} {n : Nat} {p : Place} {mu : Micro} {s t : State}

/-- The access cycles follow, the scratch cells holding the address of `p`. -/
def AccessEnds (k : Kind) (m : Mode) (access : Nat → State → CycleResult) (op : CurOp) (p : Place) (s t : State) : Prop :=
  ∀ mu, mu.curOp = op → Addressed k p s mu →
    Ends (memoryCycle k m access) (addressLength k m mu.crossed) mu (addressCycles k p s).2 t

theorem AccessEnds.ends {op : CurOp} (h : AccessEnds k m access op p s t) (hop : mu.curOp = op) {a : Word} {u : State}
    (hp : addressCycles k p s = (a, u)) (ha : mu.ea = a)
    (hbase : (indexOf p s.cpu).isSome → wordOf mu.hi mu.lo = (baseOf p s).1)
    (hn : addressLength k m mu.crossed = n) : Ends (memoryCycle k m access) n mu u t := by
  have hends := h mu hop ⟨by rw [hp, ha], hbase⟩
  rw [hp, hn] at hends
  exact hends

/-- The address cycles of zero page indexed, after the byte is fetched (R174, R175). -/
theorem AccessEnds.zeroPageIndexed (hm : m = .zpx ∨ m = .zpy) {z hi : Byte} {op : CurOp}
    (h : AccessEnds k m access op (m.place z hi) s t) (hop : mu.curOp = op) (hlo : mu.lo = z)
    (hea : mu.ea = zeroPage z) : Ends (memoryCycle k m access) 2 mu s t := by
  have hlen (c : Bool) : addressLength k m c = 3 := by rcases hm with rfl | rfl <;> rfl
  refine .address _ (by rw [hlen]; decide) (addressCycle_zeroPage_two (hm.imp_right .inl) mu s) rfl (ticks_dummyRead _ s) ?_
  rw [hea, hlo]
  rcases hm with rfl | rfl
  · exact h.ends (by exact hop) (addressCycles_zpx k z s) rfl nofun rfl
  · exact h.ends (by exact hop) (addressCycles_zpy k z s) rfl nofun rfl

theorem AccessEnds.absolute {lo : Byte} {op : CurOp}
    (h : AccessEnds k .abs access op (.abs (wordOf (atPc s) lo)) (fetch s).2 t) (hop : mu.curOp = op)
    (hlo : mu.lo = lo) : Ends (memoryCycle k .abs access) 2 mu s t := by
  refine .address _ (Nat.lt_succ_self 2) (addressCycle_abs_two mu s) rfl (ticks_fetch s) ?_
  rw [hlo]
  exact h.ends (by exact hop) (addressCycles_abs k _ _) rfl nofun rfl

/-- The cycle of a carrying index, which a read performs only where it crosses a page (R177, R181). -/
theorem AccessEnds.index {op : CurOp} (h : AccessEnds k m access op p s t) (hop : mu.curOp = op)
    {index lo hi : Byte} {u : State} (hlen : ∀ c, addressLength k m c = n + if k = .read ∧ c = false then 0 else 1)
    (hcycle : ∀ v, addressCycle m n v = earlyCycle (modeIndex m v.cpu) v) (hindex : modeIndex m u.cpu = index)
    (hp : addressCycles k p s = (indexedAddr (wordOf hi lo) index, indexCycle k (wordOf hi lo) index u))
    (hbase : (baseOf p s).1 = wordOf hi lo) :
    Ends (memoryCycle k m access) n (indexedMicro index lo hi mu) u t := by
  have hend : Ends (memoryCycle k m access) (addressLength k m (crossesPage (wordOf hi lo) index))
      (indexedMicro index lo hi mu) (indexCycle k (wordOf hi lo) index u) t :=
    h.ends (by exact hop) hp rfl (fun _ => hbase.symm) rfl
  rw [hlen] at hend
  have hlen' : addressLength k m (indexedMicro index lo hi mu).crossed = _ := hlen (crossesPage (wordOf hi lo) index)
  by_cases hskip : k = .read ∧ crossesPage (wordOf hi lo) index = false
  · rwa [indexCycle, if_pos hskip, if_pos hskip] at hend
  · rw [indexCycle, if_neg hskip, if_neg hskip] at hend
    rw [if_neg hskip] at hlen'
    refine .address _ (by omega) ?_ rfl (ticks_dummyRead _ u) hend
    rw [hcycle, modeIndex_withMicro, hindex, earlyCycle_withMicro]
    rfl

/-- The address cycles of absolute indexed, after the low byte is fetched (R177). -/
theorem AccessEnds.absoluteIndexed (hm : m = .abx ∨ m = .aby) {lo : Byte} {op : CurOp}
    (h : AccessEnds k m access op (m.place lo (atPc s)) (fetch s).2 t) (hop : mu.curOp = op) (hlo : mu.lo = lo) :
    Ends (memoryCycle k m access) 2 mu s t := by
  have hindex : modeIndex m (fetch s).2.cpu = modeIndex m s.cpu := by
    rw [fetch_cpu, (regRead_modeIndex m).spent]
    cases m <;> rfl
  have hlen (c : Bool) : addressLength k m c = 3 + if k = .read ∧ c = false then 0 else 1 := by
    rcases hm with rfl | rfl <;> rfl
  have hlt (c : Bool) : 2 < addressLength k m c := by rw [hlen]; omega
  have hcycle (v : State) : addressCycle m 3 v = earlyCycle (modeIndex m v.cpu) v := by
    rcases hm with rfl | rfl <;> rfl
  rcases hm with rfl | rfl
  · refine .address _ (hlt _) (addressCycle_abx_two mu s) rfl (ticks_fetch s) ?_
    rw [hlo]
    have hx : (fetch s).2.cpu.x = s.cpu.x := hindex
    exact h.index hop hlen hcycle hindex ((addressCycles_abx k _ _).trans (by rw [hx])) rfl
  · refine .address _ (hlt _) (addressCycle_aby_two mu s) rfl (ticks_fetch s) ?_
    rw [hlo]
    have hy : (fetch s).2.cpu.y = s.cpu.y := hindex
    exact h.index hop hlen hcycle hindex ((addressCycles_aby k _ _).trans (by rw [hy])) rfl

/-- The two reads of the pointer of `(zp,X)` (R180). -/
theorem AccessEnds.pointer {z : Byte} {op : CurOp} {u : State} (h : AccessEnds k .izx access op (.izx z) s t)
    (hop : mu.curOp = op) {q : Byte} (hea : mu.ea = zeroPage q) (hp : addressCycles k (.izx z) s = readPointer q u) :
    Ends (memoryCycle k .izx access) 3 mu u t := by
  refine .address _ (by decide : 3 < 5) (addressCycle_izx_three mu u) rfl (ticks_rd u _) ?_
  refine .address _ (by decide : 4 < 5) (addressCycle_izx_four _ _) rfl (ticks_rd _ _) ?_
  have hq : loByte (zeroPage q) = q := loByte_wordOf 0x00 q
  rw [hea, hq]
  rw [readPointer] at hp
  dsimp only at hp ⊢
  refine h.ends ?_ hp ?_ nofun ?_
  · exact hop
  · rfl
  · rfl

/-- The address cycles of `(zp,X)`, after the byte is fetched (R180). -/
theorem AccessEnds.indexedIndirect {z : Byte} {op : CurOp} (h : AccessEnds k .izx access op (.izx z) s t)
    (hop : mu.curOp = op) (hlo : mu.lo = z) (hea : mu.ea = zeroPage z) : Ends (memoryCycle k .izx access) 2 mu s t := by
  refine .address _ (by decide : 2 < 5) (addressCycle_zeroPage_two (by decide) mu s) rfl (ticks_dummyRead _ s) ?_
  rw [hea, hlo]
  exact h.pointer hop rfl (addressCycles_izx k z s)

/-- The address cycles of `(zp),Y`, after the byte is fetched (R181). -/
theorem AccessEnds.indirectIndexed {z : Byte} {op : CurOp} (h : AccessEnds k .izy access op (.izy z) s t)
    (hop : mu.curOp = op) (hlo : mu.lo = z) (hea : mu.ea = zeroPage z) : Ends (memoryCycle k .izy access) 2 mu s t := by
  have hlen (c : Bool) : addressLength k .izy c = 4 + if k = .read ∧ c = false then 0 else 1 := rfl
  have hlt {n : Nat} (hn : n < 4) (c : Bool) : n < addressLength k .izy c := by rw [hlen]; omega
  refine .address _ (hlt (by decide) _) (addressCycle_izy_two mu s) rfl (ticks_rd s _) ?_
  refine .address _ (hlt (by decide) _) (addressCycle_izy_three _ _) rfl (ticks_rd _ _) ?_
  rw [hea, hlo, rd_y]
  refine h.index ?_ hlen (fun _ => rfl) ((rd_y _ _).trans (rd_y _ _)) ?_ ?_
  · exact hop
  · rw [addressCycles_izy, readPointer]
  · rw [baseOf, readPointer]

/-- After the opcode fetch, the address cycles of a mode; then the access cycles. -/
theorem AccessEnds.operand {op : CurOp}
    (h : AccessEnds k m access op (m.place (atPc s) (atPc (fetches 1 s))) (fetches m.operandBytes s) t)
    (hop : mu.curOp = op) : Ends (memoryCycle k m access) 1 mu s t := by
  have hfirst : 1 < addressLength k m mu.crossed := by
    cases m <;> simp only [addressLength] <;> omega
  have htwo : fetches 2 s = (fetch (fetches 1 s)).2 := fetches_succ 1 s
  refine .address _ hfirst (addressCycle_one m mu s) rfl (ticks_fetch s) ?_
  rw [fetches_one]
  cases m with
  | zp => exact h.ends (by exact hop) (addressCycles_zp k _ _) rfl nofun rfl
  | zpx | zpy => exact h.zeroPageIndexed (by decide) hop rfl rfl
  | abs =>
    rw [Mode.operandBytes, htwo] at h
    exact h.absolute hop rfl
  | abx | aby =>
    rw [Mode.operandBytes, htwo] at h
    exact h.absoluteIndexed (by decide) hop rfl
  | izx => exact h.indexedIndirect hop rfl rfl
  | izy => exact h.indirectIndexed hop rfl rfl

/-! ### Access cycles -/

theorem memoryCycle_access_zero (htick : s.cpu.tick = addressLength k m mu.crossed) :
    memoryCycle k m access (withMicro mu s) = access 0 (withMicro mu s) := memoryCycle_access (j := 0) htick

variable {op : CurOp}

/-- The access cycle of a read (R183). -/
theorem accessEnds_read {f : Byte → Cpu → Cpu} (hf : ∀ b, RegChange (f b)) :
    AccessEnds .read m (fun _ => readAccess f) op p s (readInstr f (.mem p) s) := by
  intro mu _ ⟨hea, _⟩
  rw [readInstr, readOperand]
  generalize addressCycles .read p s = r at hea ⊢
  refine .last mu (fun htick => (memoryCycle_access_zero htick).trans ?_) ((ticks_rd r.2 r.1).onCpu (hf _))
  rw [readAccess, withMicro_micro, hea, rd_withMicro, onCpu_withMicro mu _ (hf _)]

/-- The access cycle of a store (R185). -/
theorem accessEnds_store {f : Cpu → Byte} (hf : RegRead f) :
    AccessEnds .write m (fun _ => storeAccess f) op p s (storeInstr f p s) := by
  intro mu _ ⟨hea, _⟩
  rw [storeInstr, writeOperand, ← hf.addressCycles .write p s]
  generalize addressCycles .write p s = r at hea ⊢
  refine .last mu (fun htick => (memoryCycle_access_zero htick).trans ?_) (ticks_wr r.2 r.1 _)
  rw [storeAccess, withMicro_micro, hea, wr_withMicro, hf.withMicro]

theorem modifyAccess_zero (f : Byte → Cpu → Byte × Cpu) (mu : Micro) (s : State) :
    modifyAccess f 0 (withMicro mu s) = .more (withMicro { mu with val := (rd s mu.ea).1 } (rd s mu.ea).2) := by
  rw [modifyAccess, withMicro_micro, rd_withMicro, onMicro_withMicro]

theorem modifyAccess_one (f : Byte → Cpu → Byte × Cpu) (mu : Micro) (s : State) :
    modifyAccess f 1 (withMicro mu s) = .more (withMicro mu (wr s mu.ea mu.val)) := by
  rw [modifyAccess, withMicro_micro, wr_withMicro]

theorem modifyAccess_two {f : Byte → Cpu → Byte × Cpu} (mu : Micro) (hread : RegRead fun c => (f mu.val c).1)
    (hchange : RegChange fun c => (f mu.val c).2) (s : State) :
    modifyAccess f 2 (withMicro mu s) =
      .last (withMicro mu (onCpu (fun c => (f mu.val c).2) (wr s mu.ea (f mu.val s.cpu).1))) := by
  have hlast (u : State) : modifyAccess f 2 u =
      .last (onCpu (fun c => (f u.cpu.micro.val c).2) (wr u u.cpu.micro.ea (f u.cpu.micro.val u.cpu).1)) := rfl
  have hbyte : (f mu.val (withMicro mu s).cpu).1 = (f mu.val s.cpu).1 := hread.withMicro mu s
  rw [hlast, withMicro_micro, hbyte, wr_withMicro, onCpu_withMicro mu _ hchange]

/-- The double write of a read-modify-write (R184). -/
theorem ends_modifyWrites {f : Byte → Cpu → Byte × Cpu} (hread : ∀ b, RegRead fun c => (f b c).1)
    (hchange : ∀ b, RegChange fun c => (f b c).2) (mu : Micro) (s : State) :
    Ends (memoryCycle .modify m (modifyAccess f)) (addressLength .modify m mu.crossed + 1) mu s
      (onCpu (fun c => (f mu.val c).2) (wr (wr s mu.ea mu.val) mu.ea (f mu.val s.cpu).1)) := by
  have hold : (f mu.val s.cpu).1 = (f mu.val (wr s mu.ea mu.val).cpu).1 := ((hread mu.val).wr s _ _).symm
  rw [hold]
  refine .more mu (fun htick => (memoryCycle_access htick).trans (modifyAccess_one f mu s)) rfl (ticks_wr s _ _) ?_
  generalize wr s mu.ea mu.val = u
  exact .last mu (fun htick => (memoryCycle_access htick).trans (modifyAccess_two mu (hread _) (hchange _) u))
    ((ticks_wr u _ _).onCpu (hchange _))

/-- The three access cycles of a read-modify-write (R184). -/
theorem accessEnds_modify {f : Byte → Cpu → Byte × Cpu} (hread : ∀ b, RegRead fun c => (f b c).1)
    (hchange : ∀ b, RegChange fun c => (f b c).2) :
    AccessEnds .modify m (modifyAccess f) op p s (modifyInstr f p s) := by
  intro mu _ ⟨hea, _⟩
  have hbyte (b : Byte) : (f b s.cpu).1 = (f b (rd (addressCycles .modify p s).2 mu.ea).2.cpu).1 :=
    ((hread b).rd _ _ |>.trans ((hread b).addressCycles .modify p s)).symm
  rw [modifyInstr, modifyOperand]
  simp only [hbyte]
  rw [← hea]
  generalize (addressCycles .modify p s).2 = u
  refine .more { mu with val := (rd u mu.ea).1 }
    (fun htick => (memoryCycle_access_zero htick).trans (modifyAccess_zero f mu u)) rfl (ticks_rd u _) ?_
  generalize rd u mu.ea = r
  exact ends_modifyWrites hread hchange { mu with val := r.1 } r.2

/-- The access cycle of a StoreHigh, for the modes with a carrying index (R259). -/
theorem accessEnds_storeHigh {f : Cpu → Byte} {g : Cpu → Cpu} (hf : RegRead f) (hg : RegChange g)
    (hindex : indexOf p s.cpu = some (modeIndex m s.cpu)) :
    AccessEnds .write m (fun _ => storeHighAccess m f g) op p s (onCpu g (storeHigh p (f s.cpu) s)) := by
  intro mu _ ⟨_, hbase⟩
  have hb := hbase (by rw [hindex]; rfl)
  have hstate : (addressCycles .write p s).2 = indexCycle .write (baseOf p s).1 (modeIndex m s.cpu) (baseOf p s).2 := by
    rw [addressCycles, hindex]
  rw [storeHigh, hindex, Option.getD_some, ← hstate, ← hb, ← hf.addressCycles .write p s,
    ← (regRead_modeIndex m).addressCycles .write p s]
  generalize (addressCycles .write p s).2 = u
  refine .last mu (fun htick => (memoryCycle_access_zero htick).trans ?_) ((ticks_wr u _ _).onCpu hg)
  rw [storeHighAccess, withMicro_micro, hf.withMicro, modeIndex_withMicro, wr_withMicro, onCpu_withMicro mu _ hg]

end

end Sys2Proof.Machine
end

section
/-! The other plans and interrupt service by cycle: each list of cycles ends where the instruction, or the entry, does (R233
to R236, R245, R246, R247 to R250, R410). -/

namespace Sys2Proof.Machine

section
variable {next : State → CycleResult} {n : Nat} {mu mu' : Micro} {s t u : State} {g : State → State}

/-- A cycle of a list given by its count. -/
theorem Ends.cycle (hnext : ∀ v, v.cpu.tick = n → next v = .more (g v)) (hg : g (withMicro mu s) = withMicro mu' u)
    (hop : mu'.curOp = mu.curOp) (hu : Ticks s u) (h : Ends next (n + 1) mu' u t) : Ends next n mu s t :=
  .more mu' (fun htick => (hnext (withMicro mu s) htick).trans (congrArg CycleResult.more hg)) hop hu h

/-- The last cycle of a list given by its count. -/
theorem Ends.final (hnext : ∀ v, v.cpu.tick = n → next v = .last (g v)) (hg : g (withMicro mu s) = withMicro mu' t)
    (ht : Ticks s t) : Ends next n mu s t :=
  .last mu' (fun htick => (hnext (withMicro mu s) htick).trans (congrArg CycleResult.last hg)) ht

end

section
variable (m : Micro) (s : State)

theorem latchLo_fetch_withMicro :
    latchLo (fetch (withMicro m s)) = withMicro { m with lo := (fetch s).1 } (fetch s).2 := by
  rw [fetch_withMicro, latchLo_withMicro]

theorem latchLo_rd_withMicro (a : Word) :
    latchLo (rd (withMicro m s) a) = withMicro { m with lo := (rd s a).1 } (rd s a).2 := by
  rw [rd_withMicro, latchLo_withMicro]

theorem latchLo_pull_withMicro :
    latchLo (pull (withMicro m s)) = withMicro { m with lo := (pull s).1 } (pull s).2 := by
  rw [pull_withMicro, latchLo_withMicro]

theorem jumpTo_rd_withMicro (a : Word) :
    jumpTo (rd (withMicro m s) a) = withMicro m (onCpu (setPc (wordOf (rd s a).1 m.lo)) (rd s a).2) := by
  rw [rd_withMicro, jumpTo_withMicro]

theorem setI_push_withMicro (b : Bool) (v : Byte) :
    onCpu (setI b) (push v (withMicro m s)) = withMicro m (onCpu (setI b) (push v s)) := by
  rw [push_withMicro, setI_withMicro]

theorem vectorLow_withMicro (vector : Word) :
    vectorLow vector (withMicro m s) = withMicro { m with lo := (rd s vector).1 } (rd s vector).2 := by
  rw [vectorLow, latchLo_rd_withMicro]

theorem vectorHigh_withMicro (vector : Word) :
    vectorHigh vector (withMicro m s) =
      withMicro m (onCpu (setPc (wordOf (rd s (vector + 1)).1 m.lo)) (rd s (vector + 1)).2) := by
  rw [vectorHigh, jumpTo_rd_withMicro]

theorem jumpTo_pull_withMicro :
    jumpTo (pull (withMicro m s)) = withMicro m (onCpu (setPc (wordOf (pull s).1 m.lo)) (pull s).2) := by
  rw [pull_withMicro, jumpTo_withMicro]

end

theorem ticks_setPc {s u : State} (h : Ticks s u) (w : Word) : Ticks s (onCpu (setPc w) u) := h.onCpu (regChange_setPc w)

theorem push_pc (v : Byte) (s : State) : (push v s).cpu.pc = s.cpu.pc := by
  rw [push_cpu]
  rfl

/-! ### Entry to a handler -/

/-- The five cycles of an entry, from the first push on (R245, R410). -/
theorem ends_enterHandler {next : State → CycleResult} {n : Nat} {vector : Word} {b : Bool}
    (hhigh : ∀ v, v.cpu.tick = n → next v = .more (push (hiByte v.cpu.pc) v))
    (hlow : ∀ v, v.cpu.tick = n + 1 → next v = .more (push (loByte v.cpu.pc) v))
    (hstatus : ∀ v, v.cpu.tick = n + 2 → next v = .more (onCpu (setI true) (push (packP v.cpu b) v)))
    (hvector : ∀ v, v.cpu.tick = n + 3 → next v = .more (vectorLow vector v))
    (hlast : ∀ v, v.cpu.tick = n + 4 → next v = .last (vectorHigh vector v)) (mu : Micro) (s : State) :
    Ends next n mu s (enterHandler vector b s) := by
  rw [enterHandler, pushWord]
  refine .cycle hhigh (push_withMicro mu s (hiByte s.cpu.pc)) rfl (ticks_push _ s) ?_
  have hpc := push_pc (hiByte s.cpu.pc) s
  generalize push (hiByte s.cpu.pc) s = u at hpc ⊢
  rw [← hpc]
  refine .cycle hlow (push_withMicro mu u (loByte u.cpu.pc)) rfl (ticks_push _ u) ?_
  generalize push (loByte u.cpu.pc) u = u
  refine .cycle hstatus (setI_push_withMicro mu u true (packP u.cpu b)) rfl
    ((ticks_push _ u).onCpu (regChange_setI true)) ?_
  generalize onCpu (setI true) (push (packP u.cpu b) u) = u
  rw [loadVector]
  refine .cycle hvector (vectorLow_withMicro mu u vector) rfl (ticks_rd u vector) ?_
  generalize rd u vector = r
  exact .final hlast (vectorHigh_withMicro { mu with lo := r.1 } r.2 vector) (ticks_setPc (ticks_rd r.2 _) _)

/-- The leading reads of PC, then the entry (R410). -/
theorem ends_leadingReads {next : State → CycleResult} {k n : Nat} {t : State → State}
    (hread : ∀ v, v.cpu.tick < n + k → next v = .more (readPc v))
    (hentry : ∀ mu s, Ends next (n + k) mu s (t s)) (mu : Micro) (s : State) :
    Ends next n mu s (t (times readPc k s)) := by
  induction k generalizing n s with
  | zero => exact hentry mu s
  | succ k ih =>
    rw [Nat.add_succ, ← Nat.succ_add] at hread hentry
    exact .cycle (fun v hv => hread v (by omega)) (readPc_withMicro mu s) rfl (ticks_readPc s) (ih hread hentry (readPc s))

/-- The cycles of interrupt service with `k` leading reads (R410). -/
def serviceList (vector : Word) (k : Nat) (s : State) : CycleResult :=
  if s.cpu.tick < k then .more (readPc s) else entryCycle vector (s.cpu.tick - k) s

theorem serviceCycle_eq (vector : Word) (s : State) :
    serviceCycle vector s = serviceList vector (s.chip.intCycles.count - 5) s := rfl

theorem serviceList_entry (vector : Word) {k j : Nat} {s : State} (h : s.cpu.tick = 0 + k + j) :
    serviceList vector k s = entryCycle vector j s := by
  rw [serviceList, if_neg (by omega), h, Nat.zero_add, Nat.add_sub_cancel_left]

/-- Interrupt service from its first cycle (R410). -/
theorem ends_service (vector : Word) (mu : Micro) (s : State) :
    Ends (serviceList vector (s.chip.intCycles.count - 5)) 0 mu s (interrupt vector s) := by
  refine ends_leadingReads (t := enterHandler vector false) (fun v hv => if_pos (by omega)) ?_ mu s
  exact ends_enterHandler (fun _ h => serviceList_entry vector (j := 0) h) (fun _ h => serviceList_entry vector h)
    (fun _ h => serviceList_entry vector h) (fun _ h => serviceList_entry vector h) (fun _ h => serviceList_entry vector h)

/-! ### Plans -/

/-- The cycle that fetches the low byte of a jump's target (R234, R235). -/
theorem ends_latchFetch {next : State → CycleResult} (hnext : ∀ v, v.cpu.tick = 1 → next v = .more (latchLo (fetch v)))
    (mu : Micro) (s : State) {t : State} (h : Ends next 2 { mu with lo := atPc s } (fetches 1 s) t) : Ends next 1 mu s t := by
  refine .cycle hnext (latchLo_fetch_withMicro mu s) rfl (ticks_fetch s) ?_
  rw [fetch_fst, fetches_one, ← atPc]
  exact h

/-- The two dummy reads of an instruction that pulls (R236, R246, R249, R250). -/
theorem ends_dummyReads {next : State → CycleResult} (hpc : ∀ v, v.cpu.tick = 1 → next v = .more (readPc v))
    (hstack : ∀ v, v.cpu.tick = 2 → next v = .more (readStack v)) (mu : Micro) (s : State) {t : State}
    (h : Ends next 3 mu (readStack (readPc s)) t) : Ends next 1 mu s t :=
  .cycle hpc (readPc_withMicro mu s) rfl (ticks_readPc s)
    (.cycle hstack (readStack_withMicro mu (readPc s)) rfl (ticks_readStack _) h)

section
variable (mu : Micro) (s : State)

theorem fetches_two : fetches 2 s = (fetch (fetches 1 s)).2 := fetches_succ 1 s

theorem ends_jmpAbs : Ends (planCycle .jmpAbs) 1 mu s (Plan.jmpAbs.run (atPc s) (atPc (fetches 1 s)) (fetches 2 s)) := by
  have hhi : atPc (fetches 1 s) = (rd (fetches 1 s) (fetches 1 s).cpu.pc).1 := (rd_fst _ _).symm
  rw [Plan.run, fetches_two, hhi, fetch_snd, onCpu_onCpu]
  refine ends_latchFetch (fun v h => by rw [planCycle, h]; rfl) mu s ?_
  generalize fetches 1 s = u
  exact .final (g := fun v => jumpTo (rd v v.cpu.pc)) (fun v h => by rw [planCycle, h]; rfl)
    (jumpTo_rd_withMicro { mu with lo := atPc s } u u.cpu.pc) (ticks_setPc (ticks_rd u _) _)

theorem ends_jmpInd : Ends (planCycle .jmpInd) 1 mu s (Plan.jmpInd.run (atPc s) (atPc (fetches 1 s)) (fetches 2 s)) := by
  rw [Plan.run, fetches_two]
  refine ends_latchFetch (fun v h => by rw [planCycle, h]; rfl) mu s ?_
  generalize fetches 1 s = u
  generalize atPc s = lo
  have htarget (v : State) : v.cpu.tick = 2 → planCycle .jmpInd v =
      .more (onMicro (fun c => { c with hi := (fetch v).1, ea := wordOf (fetch v).1 c.lo }) (fetch v).2) :=
    fun h => by rw [planCycle, h]; rfl
  refine .more { mu with lo := lo, hi := atPc u, ea := wordOf (atPc u) lo }
    (fun h => (htarget (withMicro { mu with lo := lo } u) h).trans
      (by rw [fetch_withMicro, onMicro_withMicro, fetch_fst, atPc])) rfl (ticks_fetch u) ?_
  generalize (fetch u).2 = v
  generalize wordOf (atPc u) lo = a
  generalize atPc u = hi
  refine .cycle (g := fun v => latchLo (rd v v.cpu.micro.ea)) (fun v h => by rw [planCycle, h]; rfl)
    (latchLo_rd_withMicro { mu with lo := lo, hi := hi, ea := a } v a) rfl (ticks_rd v a) ?_
  generalize rd v a = r
  exact .final
    (g := fun v => jumpTo (rd v (wordOf (hiByte v.cpu.micro.ea) (loByte v.cpu.micro.ea + 1))))
    (fun v h => by rw [planCycle, h]; rfl)
    (jumpTo_rd_withMicro { mu with lo := r.1, hi := hi, ea := a } r.2 (wordOf (hiByte a) (loByte a + 1)))
    (ticks_setPc (ticks_rd r.2 _) _)

theorem ends_jsr : Ends (planCycle .jsr) 1 mu s (Plan.jsr.run (atPc s) (jsrHighByte (fetches 1 s)) (fetches 1 s)) := by
  rw [Plan.run, jsrHighByte, pushWord]
  refine ends_latchFetch (fun v h => by rw [planCycle, h]; rfl) mu s ?_
  generalize fetches 1 s = u
  generalize atPc s = lo
  refine .cycle (g := readStack) (fun v h => by rw [planCycle, h]; rfl) (readStack_withMicro { mu with lo := lo } u) rfl
    (ticks_readStack u) ?_
  have hpc := readStack_pc u
  generalize readStack u = v at hpc ⊢
  rw [← hpc]
  refine .cycle (g := fun v => push (hiByte v.cpu.pc) v) (fun v h => by rw [planCycle, h]; rfl)
    (push_withMicro { mu with lo := lo } v (hiByte v.cpu.pc)) rfl (ticks_push _ v) ?_
  have hpc := push_pc (hiByte v.cpu.pc) v
  generalize push (hiByte v.cpu.pc) v = w at hpc ⊢
  rw [← hpc]
  refine .cycle (g := fun v => push (loByte v.cpu.pc) v) (fun v h => by rw [planCycle, h]; rfl)
    (push_withMicro { mu with lo := lo } w (loByte w.cpu.pc)) rfl (ticks_push _ w) ?_
  generalize push (loByte w.cpu.pc) w = x
  exact .final (g := fun v => jumpTo (rd v v.cpu.pc)) (fun v h => by rw [planCycle, h]; rfl)
    (jumpTo_rd_withMicro { mu with lo := lo } x x.cpu.pc) (ticks_setPc (ticks_rd x _) _)

theorem ends_rts (lo hi : Byte) : Ends (planCycle .rts) 1 mu s (Plan.rts.run lo hi s) := by
  rw [Plan.run, pullWord]
  refine ends_dummyReads (fun v h => by rw [planCycle, h]; rfl) (fun v h => by rw [planCycle, h]; rfl) mu s ?_
  generalize readStack (readPc s) = u
  refine .cycle (g := fun v => latchLo (pull v)) (fun v h => by rw [planCycle, h]; rfl) (latchLo_pull_withMicro mu u) rfl
    (ticks_pull u) ?_
  generalize pull u = l
  refine .cycle (g := fun v => jumpTo (pull v)) (fun v h => by rw [planCycle, h]; rfl)
    (jumpTo_pull_withMicro { mu with lo := l.1 } l.2) rfl (ticks_setPc (ticks_pull l.2) _) ?_
  generalize onCpu (setPc (wordOf (pull l.2).1 l.1)) (pull l.2).2 = u
  refine .final (g := fun v => onCpu (setPc ((readPc v).cpu.pc + 1)) (readPc v)) (mu' := { mu with lo := l.1 })
    (fun v h => by rw [planCycle, h]; rfl) ?_ (ticks_setPc (ticks_readPc u) _)
  rw [readPc_withMicro, setPc_withMicro, withMicro_pc]

theorem ends_brk (lo hi : Byte) : Ends (planCycle .brk) 1 mu s (Plan.brk.run lo hi s) := by
  rw [Plan.run]
  refine .cycle (g := fun v => (fetch v).2) (mu' := mu) (fun v h => by rw [planCycle, h]; rfl) (by rw [fetch_withMicro]) rfl
    (ticks_fetch s) ?_
  generalize (fetch s).2 = u
  refine ends_enterHandler ?_ ?_ ?_ ?_ ?_ mu u
  all_goals
    intro v h
    rw [planCycle, h]
    rfl

theorem ends_rti (lo hi : Byte) : Ends (planCycle .rti) 1 mu s (Plan.rti.run lo hi s) := by
  rw [Plan.run, returnFromHandler, pullWord]
  refine ends_dummyReads (fun v h => by rw [planCycle, h]; rfl) (fun v h => by rw [planCycle, h]; rfl) mu s ?_
  generalize readStack (readPc s) = u
  refine .cycle (g := fun v => onCpu (unpackP (pull v).1) (pull v).2) (mu' := mu) (fun v h => by rw [planCycle, h]; rfl)
    (by rw [pull_withMicro, unpackP_withMicro]) rfl ((ticks_pull u).onCpu (regChange_unpackP _)) ?_
  generalize onCpu (unpackP (pull u).1) (pull u).2 = u
  refine .cycle (g := fun v => latchLo (pull v)) (fun v h => by rw [planCycle, h]; rfl) (latchLo_pull_withMicro mu u) rfl
    (ticks_pull u) ?_
  generalize pull u = l
  exact .final (g := fun v => jumpTo (pull v)) (fun v h => by rw [planCycle, h]; rfl)
    (jumpTo_pull_withMicro { mu with lo := l.1 } l.2) (ticks_setPc (ticks_pull l.2) _)

theorem ends_implied {f : Cpu → Cpu} (hf : RegChange f) (lo hi : Byte) :
    Ends (planCycle (.implied f)) 1 mu s ((Plan.implied f).run lo hi s) := by
  rw [Plan.run, impliedInstr]
  refine .final (g := impliedInstr f) (mu' := mu) (fun v h => by rw [planCycle]) ?_ ((ticks_readPc s).onCpu hf)
  rw [impliedInstr, readPc_withMicro, onCpu_withMicro mu _ hf]

theorem ends_immediate {f : Byte → Cpu → Cpu} (hf : ∀ b, RegChange (f b)) (hi : Byte) :
    Ends (planCycle (.immediate f)) 1 mu s ((Plan.immediate f).run (atPc s) hi (fetches 1 s)) := by
  rw [Plan.run, readInstr, readOperand, atPc, ← fetch_fst, ← fetches_one]
  refine .final (g := fun v => onCpu (f (fetch v).1) (fetch v).2) (mu' := mu) (fun v h => by rw [planCycle]) ?_
    ((ticks_fetch s).onCpu (hf _))
  rw [fetch_withMicro, onCpu_withMicro mu _ (hf _)]

theorem ends_push {f : Cpu → Byte} (hf : RegRead f) (lo hi : Byte) :
    Ends (planCycle (.push f)) 1 mu s ((Plan.push f).run lo hi s) := by
  have hbyte : f s.cpu = f (readPc s).cpu := (hf.rd s _).symm
  rw [Plan.run, hbyte]
  refine .cycle (g := readPc) (fun v h => by rw [planCycle, h]; rfl) (readPc_withMicro mu s) rfl (ticks_readPc s) ?_
  generalize readPc s = u
  refine .final (g := fun v => push (f v.cpu) v) (mu' := mu) (fun v h => by rw [planCycle, h]; rfl) ?_ (ticks_push _ u)
  rw [hf.withMicro, push_withMicro]

theorem ends_pull {f : Byte → Cpu → Cpu} (hf : ∀ b, RegChange (f b)) (lo hi : Byte) :
    Ends (planCycle (.pull f)) 1 mu s ((Plan.pull f).run lo hi s) := by
  rw [Plan.run]
  refine ends_dummyReads (fun v h => by rw [planCycle, h]; rfl) (fun v h => by rw [planCycle, h]; rfl) mu s ?_
  generalize readStack (readPc s) = u
  refine .final (g := fun v => onCpu (f (pull v).1) (pull v).2) (mu' := mu) (fun v h => by rw [planCycle, h]; rfl) ?_
    ((ticks_pull u).onCpu (hf _))
  rw [pull_withMicro, onCpu_withMicro mu _ (hf _)]

end

end Sys2Proof.Machine
end

section
/-! The step by cycles (R621): the branch and the memory plans, every opcode's plan, and the four arms of R404. -/

namespace Sys2Proof.Machine

/-! ### Branches -/

section
variable {cond : Cpu → Bool}

theorem branchCycle_one {s : State} (h : s.cpu.tick = 1) : branchCycle cond s =
    if cond s.cpu then .more (onMicro (fun u => { u with ea := branchTarget (fetch s).2.cpu.pc (fetch s).1 }) (fetch s).2)
    else .last (fetch s).2 := by
  rw [branchCycle, h]
  rfl

theorem branchCycle_two {s : State} (h : s.cpu.tick = 2) : branchCycle cond s =
    if hiByte s.cpu.micro.ea ≠ hiByte s.cpu.pc then .more (readPc s)
    else .last (onCpu (setPc s.cpu.micro.ea) (readPc s)) := by
  rw [branchCycle, h]
  rfl

theorem branchCycle_three {s : State} (h : s.cpu.tick = 3) : branchCycle cond s =
    .last (onCpu (setPc s.cpu.micro.ea) (dummyRead (wordOf (hiByte s.cpu.pc) (loByte s.cpu.micro.ea)) s)) := by
  rw [branchCycle, h]
  rfl

theorem branchOn_taken (off : Byte) (s : State) : branchOn true off s =
    onCpu (setPc (branchTarget s.cpu.pc off))
      (if hiByte (branchTarget s.cpu.pc off) ≠ hiByte s.cpu.pc
        then dummyRead (wordOf (hiByte s.cpu.pc) (loByte (branchTarget s.cpu.pc off))) (readPc s) else readPc s) := by
  rw [branchOn, if_pos rfl]

/-- The cycles of a taken branch after its displacement is fetched (R233). -/
theorem ends_branchTaken {mu : Micro} {off : Byte} {s : State} (hea : mu.ea = branchTarget s.cpu.pc off) :
    Ends (planCycle (.branch cond)) 2 mu s (branchOn true off s) := by
  rw [branchOn_taken, ← hea]
  have htwo (h : s.cpu.tick = 2) : planCycle (.branch cond) (withMicro mu s) = _ := branchCycle_two (s := withMicro mu s) h
  simp only [withMicro_micro, withMicro_pc, readPc_withMicro, setPc_withMicro] at htwo
  have hpc := readPc_pc s
  by_cases hpage : hiByte mu.ea ≠ hiByte s.cpu.pc
  · simp only [if_pos hpage] at htwo ⊢
    refine .more mu htwo rfl (ticks_readPc s) ?_
    rw [← hpc]
    generalize readPc s = u
    refine .last mu (fun h => (branchCycle_three (s := withMicro mu u) h).trans ?_)
      (ticks_setPc (ticks_dummyRead _ u) _)
    rw [withMicro_micro, withMicro_pc, dummyRead_withMicro, setPc_withMicro]
  · simp only [if_neg hpage] at htwo ⊢
    exact .last mu htwo (ticks_setPc (ticks_readPc s) _)

/-- A branch whose condition is on the flags, not on PC (R233). -/
theorem ends_branch (hread : RegRead cond) (hpc : ∀ w c, cond (setPc w c) = cond c) (hi : Byte) (mu : Micro) (s : State) :
    Ends (planCycle (.branch cond)) 1 mu s ((Plan.branch cond).run (atPc s) hi (fetches 1 s)) := by
  have hcond : cond (fetches 1 s).cpu = cond s.cpu := by
    rw [← fetches_one, fetch_cpu, hread.spent]
    exact hpc _ _
  have hone (h : s.cpu.tick = 1) : planCycle (.branch cond) (withMicro mu s) = _ := branchCycle_one (s := withMicro mu s) h
  simp only [hread.withMicro, fetch_withMicro, onMicro_withMicro, withMicro_pc, fetch_fst, fetches_one,
    ← atPc.eq_1] at hone
  rw [Plan.run, hcond]
  cases hc : cond s.cpu with
  | true =>
    simp only [hc, if_true] at hone
    exact .more _ hone rfl (ticks_fetch s) (ends_branchTaken rfl)
  | false =>
    simp only [hc, Bool.false_eq_true, if_false] at hone
    exact .last mu hone (ticks_fetch s)

end

/-- The condition of a branch plan does not look at PC. -/
def Plan.CondOfFlags : Plan → Prop
  | .branch cond => ∀ w c, cond (setPc w c) = cond c
  | _ => True

theorem rows_condOfFlags (r : Fin 16) : RowAll (fun _ sh => ∀ chip, (planOf chip (cellInstr sh 0x00 0x00)).CondOfFlags)
    (16 * r) (OpcodeMap.rows.getD r []) := by
  fin_cases r
  all_goals refine ⟨?_, ?_, ?_, ?_, ?_, ?_, ?_, ?_, ?_, ?_, ?_, ?_, ?_, ?_, ?_, ?_, trivial⟩
  all_goals first
    | exact fun _ => True.intro
    | exact fun _ _ _ => rfl

theorem planOfOpcode_condOfFlags (chip : ChipParams) (op : Byte) : (planOfOpcode chip op).CondOfFlags :=
  shapeOf_of_rows rows_condOfFlags op chip

/-! ### Every plan -/

/-- The operand bytes fetched, JSR's last excepted (R140, R235). -/
def Plan.operandFetches (p : Plan) : Nat := if p.isJsr then 1 else p.length - 1

/-- The high operand byte: for JSR the one that its last cycle reads (R235). -/
def Plan.highByte (p : Plan) (s : State) : Byte := if p.isJsr then jsrHighByte (fetches 1 s) else atPc (fetches 1 s)

section
variable (mu : Micro) (s : State) (m : Mode)

theorem ends_read {f : Byte → Cpu → Cpu} (hf : ∀ b, RegChange (f b)) :
    Ends (planCycle (.read m f)) 1 mu s
      ((Plan.read m f).run (atPc s) (atPc (fetches 1 s)) (fetches m.operandBytes s)) := by
  have hcycle : planCycle (.read m f) = memoryCycle .read m fun _ => readAccess f := by
    funext v
    rw [planCycle]
  rw [hcycle]
  exact (accessEnds_read hf).operand rfl

theorem ends_store {f : Cpu → Byte} (hf : RegRead f) :
    Ends (planCycle (.store m f)) 1 mu s
      ((Plan.store m f).run (atPc s) (atPc (fetches 1 s)) (fetches m.operandBytes s)) := by
  have hcycle : planCycle (.store m f) = memoryCycle .write m fun _ => storeAccess f := by
    funext v
    rw [planCycle]
  rw [hcycle]
  exact (accessEnds_store hf).operand rfl

theorem ends_modify {f : Byte → Cpu → Byte × Cpu} (hread : ∀ b, RegRead fun c => (f b c).1)
    (hchange : ∀ b, RegChange fun c => (f b c).2) :
    Ends (planCycle (.modify m f)) 1 mu s
      ((Plan.modify m f).run (atPc s) (atPc (fetches 1 s)) (fetches m.operandBytes s)) := by
  have hcycle : planCycle (.modify m f) = memoryCycle .modify m (modifyAccess f) := by
    funext v
    rw [planCycle]
  rw [hcycle]
  exact (accessEnds_modify hread hchange).operand rfl

theorem ends_storeHigh {f : Cpu → Byte} {g : Cpu → Cpu} (hm : m = .abx ∨ m = .aby ∨ m = .izy) (hf : RegRead f)
    (hg : RegChange g) :
    Ends (planCycle (.storeHigh m f g)) 1 mu s
      ((Plan.storeHigh m f g).run (atPc s) (atPc (fetches 1 s)) (fetches m.operandBytes s)) := by
  have hcycle : planCycle (.storeHigh m f g) = memoryCycle .write m fun _ => storeHighAccess m f g := by
    funext v
    rw [planCycle]
  have hindex (lo hi : Byte) (c : Cpu) : indexOf (m.place lo hi) c = some (modeIndex m c) := by
    rcases hm with rfl | rfl | rfl <;> rfl
  rw [hcycle]
  exact (accessEnds_storeHigh hf hg (hindex _ _ _)).operand rfl

end

/-- After the opcode fetch, the cycles of a plan end where its instruction does (R621). -/
theorem ends_plan {p : Plan} (hp : p.Regular) (hcond : p.CondOfFlags) (mu : Micro) (s : State) :
    Ends (planCycle p) 1 mu s (p.run (atPc s) (p.highByte s) (fetches p.operandFetches s)) := by
  have hbytes (m : Mode) : 1 + m.operandBytes - 1 = m.operandBytes :=
    Nat.add_sub_cancel_left 1 _
  have hmemory {p : Plan} {m : Mode} (hjsr : p.isJsr = false) (hlen : p.length = 1 + m.operandBytes) :
      p.highByte s = atPc (fetches 1 s) ∧ p.operandFetches = m.operandBytes := by
    rw [Plan.highByte, Plan.operandFetches, hjsr, hlen, hbytes]
    exact ⟨rfl, rfl⟩
  cases p with
  | implied f => exact ends_implied mu s hp _ _
  | immediate f => exact ends_immediate mu s hp _
  | read m f =>
    obtain ⟨hhigh, hfetches⟩ := hmemory (p := .read m f) rfl rfl
    rw [hhigh, hfetches]
    exact ends_read mu s m hp
  | store m f =>
    obtain ⟨hhigh, hfetches⟩ := hmemory (p := .store m f) rfl rfl
    rw [hhigh, hfetches]
    exact ends_store mu s m hp
  | modify m f =>
    obtain ⟨hhigh, hfetches⟩ := hmemory (p := .modify m f) rfl rfl
    rw [hhigh, hfetches]
    exact ends_modify mu s m (fun b => (hp b).1) fun b => (hp b).2
  | storeHigh m r g =>
    obtain ⟨hm, hr, hg⟩ := hp
    obtain ⟨hhigh, hfetches⟩ := hmemory (p := .storeHigh m r g) rfl rfl
    rw [hhigh, hfetches]
    exact ends_storeHigh mu s m hm hr hg
  | branch cond => exact ends_branch hp hcond _ mu s
  | jmpAbs => exact ends_jmpAbs mu s
  | jmpInd => exact ends_jmpInd mu s
  | jsr => exact ends_jsr mu s
  | rts => exact ends_rts mu s _ _
  | brk => exact ends_brk mu s _ _
  | rti => exact ends_rti mu s _ _
  | push f => exact ends_push mu s hp _ _
  | pull f => exact ends_pull mu s hp _ _

/-! ### The arms of the boundary -/

theorem fetches_chip (n : Nat) (s : State) : (fetches n s).chip = s.chip := by
  induction n with
  | zero => rfl
  | succ n ih => rw [fetches_succ, (ticks_fetch _).chip, ih]

theorem fetches_fetches_one (n : Nat) (s : State) : fetches n (fetches 1 s) = fetches (n + 1) s :=
  (Function.iterate_succ_apply (fun u => (fetch u).2) n s).symm

/-- The instruction at PC is its plan, run after its fetches (R140, R144, log 6). -/
theorem exec_fetchInstr (s : State) :
    exec (fetchInstr s).1 (fetchInstr s).2 = .next ((planOfOpcode s.chip (atPc s)).run (atPc (fetches 1 s))
      ((planOfOpcode s.chip (atPc s)).highByte (fetches 1 s))
      (fetches (planOfOpcode s.chip (atPc s)).operandFetches (fetches 1 s))) := by
  have hjsr := isJsr_planOfOpcode s.chip (atPc s)
  have hhigh : (planOfOpcode s.chip (atPc s)).highByte (fetches 1 s) = thirdByte s := by
    rw [Plan.highByte, thirdByte, hjsr, fetches_fetches_one]
    by_cases h : atPc s = opJsr <;> simp [h]
  have hcount : (planOfOpcode s.chip (atPc s)).operandFetches + 1 = fetchedBytes (atPc s) := by
    rw [Plan.operandFetches, fetchedBytes, hjsr, lengthOf_eq s.chip]
    by_cases h : atPc s = opJsr
    · simp [h]
    · have hlen : 1 ≤ (planOfOpcode s.chip (atPc s)).length := by
        cases planOfOpcode s.chip (atPc s) <;> simp [Plan.length]
      simp [h]
      omega
  rw [fetchInstr_eq, exec_decodeBytes, fetches_chip, hhigh, fetches_fetches_one, hcount]

theorem begun_of_atBoundary {s : State} (h : s.AtBoundary) : s.begun = s := by
  obtain ⟨htick, -, hmicro⟩ := h
  rw [State.begun, ← htick, ← hmicro]

theorem stepCycle_of_boundary {s : State} (h : s.AtBoundary) : stepCycle s = closeCycle (firstCycle s) := by
  rw [stepCycle, if_pos h.tick]

theorem setCurOp_eq (k : CurOp) (s : State) : setCurOp k s = withMicro { s.cpu.micro with curOp := k } s := rfl

/-- The instruction arm: the opcode fetch, then the cycles of its plan. -/
theorem finishes_instruction {s u : State} (hs : s.AtBoundary) (hf : Fetching s)
    (hu : exec (fetchInstr s).1 (fetchInstr s).2 = .next u) : Finishes s (attachedDma u).begun := by
  have hfirst : ∃ m : Micro, m.curOp = .opcode (atPc s) ∧ stepCycle s = withMicro m (fetches 1 s) := by
    refine ⟨{ (fetch s).2.cpu.micro with curOp := .opcode (atPc s) }, rfl, ?_⟩
    rw [stepCycle_of_boundary hs, firstCycle, boundaryChoice_of_fetching hf]
    dsimp only
    rw [opcodeCycle, fetch_fst, setCurOp_eq, ← atPc, fetches_one]
    dsimp only [closeCycle]
  obtain ⟨m, hop, hfirst⟩ := hfirst
  have hfetch : Ticks s (fetches 1 s) := ticks_fetch s
  obtain rfl := next_inj ((exec_fetchInstr s).symm.trans hu)
  have hnext (m : Micro) (u : State) (hm : m.curOp = .opcode (atPc s)) (hchip : u.chip = s.chip) :
      nextCycle (withMicro m u) = planCycle (planOfOpcode s.chip (atPc s)) (withMicro m u) := by
    rw [nextCycle, withMicro_micro, hm, ← hchip]
    rfl
  have htick : (fetches 1 s).cpu.tick = 1 := by rw [hfetch.tick, hs.tick]
  have hplan := ends_plan (planOfOpcode_regular s.chip (atPc s)) (planOfOpcode_condOfFlags s.chip (atPc s)) m (fetches 1 s)
  refine hplan.finish hnext hop hfetch.chip htick (Walk.start.more hfirst hfetch) ?_ (withMicro_tick m _)
    (withMicro_cycles m _)
  rw [stepCycle_withMicro hfetch.tick_ne_zero, hnext m _ hop hfetch.chip]

/-- The arms of an interrupt: the cycles of its service. -/
theorem finishes_service {s : State} {vector : Word} {op : CurOp} {m : Micro} (hs : s.AtBoundary)
    (hvector : 0x8000 ≤ vector.toNat ∧ vector.toNat < 0xFFFF)
    (hnext : ∀ m u, m.curOp = op → nextCycle (withMicro m u) = serviceCycle vector (withMicro m u))
    (hop : m.curOp = op)
    (hfirst : firstCycle s = serviceCycle vector (withMicro m (onCpu clearNmi s))) : Finishes s (served vector s) := by
  have hbegin : endStep s = s := by rw [endStep_eq_begun, begun_of_atBoundary hs]
  have hkept := (atBoundary_served hvector.1 hvector.2 hs.dmaPage).dmaPage
  rw [served, hbegin] at hkept ⊢
  have hends := ends_service vector m (onCpu clearNmi s)
  have hnext' (m : Micro) (u : State) (hm : m.curOp = op) (hchip : u.chip = s.chip) :
      nextCycle (withMicro m u) = serviceList vector (s.chip.intCycles.count - 5) (withMicro m u) := by
    rw [hnext m u hm, serviceCycle_eq, withMicro_chip, hchip]
  have hfinish := hends.finish (s0 := s) hnext' hop rfl hs.tick .start ?_ rfl rfl
  · generalize interrupt vector (onCpu clearNmi s) = u at hkept hfinish ⊢
    have hnone : u.cpu.dmaPage = none := hkept
    rwa [attachedDma, hnone] at hfinish
  · rw [stepCycle_of_boundary hs, hfirst, serviceCycle_eq]
    rfl

/-- The jammed arm: one cycle. -/
theorem finishes_jammed {s : State} (hs : s.AtBoundary) (hj : s.cpu.jammed = true) :
    Finishes s (endStep (rd s 0xFFFF).2) := by
  have hread := ticks_rd s 0xFFFF
  have hnone : (rd s 0xFFFF).2.cpu.dmaPage = none := by rw [rd_dmaPage, hs.dmaPage]
  have hstep : stepCycle s = closeCycle (.last (rd s 0xFFFF).2) := by
    rw [stepCycle_of_boundary hs, firstCycle, boundaryChoice_of_jammed hj]
    dsimp only
    rw [jammedStep, dummyRead]
  generalize (rd s 0xFFFF).2 = u at hread hnone hstep ⊢
  have hu : withMicro u.cpu.micro u = u := rfl
  rw [← hu] at hstep
  exact Walk.start.finish hstep hnone hread rfl

/-- Settles O41: in each of the four arms the cycle steps walk through the arm's own cycles, the DMA's after them, and the
last ends at the boundary; a walk counts its calls. -/
theorem cycleStepsMakeOneStep : Obligations.CycleStepsMakeOneStep := by
  intro s t hs h
  refine Finishes.cycles ?_ hs.tick
  rcases step_cases s with ⟨hj, hstep⟩ | ⟨hj, hn, hstep⟩ | ⟨hj, hn, hirq, hi, hstep⟩ | ⟨hf, u, hu, hstep⟩
  all_goals obtain rfl := next_inj (h.symm.trans hstep)
  · exact finishes_jammed hs hj
  · refine finishes_service (op := .seqNmi) (m := { s.cpu.micro with curOp := .seqNmi }) hs (by decide)
      (fun m u hm => ?_) rfl ?_
    · rw [nextCycle, withMicro_micro, hm]
    · rw [firstCycle, boundaryChoice_of_nmi hj hn]
      rfl
  · refine finishes_service (op := .seqIrq) (m := { s.cpu.micro with curOp := .seqIrq }) hs (by decide)
      (fun m u hm => ?_) rfl ?_
    · rw [nextCycle, withMicro_micro, hm]
    · rw [firstCycle, boundaryChoice_of_irq hj hn hirq hi, onCpu_clearNmi_of_clear hn]
      rfl
  · rw [begun_of_atBoundary hs] at hu
    exact finishes_instruction hs hf hu

end Sys2Proof.Machine
end
